-- ==== Sys2Proof/Word.lean ====
section
/-! DEFINITION. The word types of the core: bytes, 32-bit interface registers, 16-bit checksums. -/
namespace Sys2Proof

/-- A byte, unsigned (00_scope.md R7). -/
abbrev Byte := BitVec 8

/-- The content of an interface register, and a command word: `REG_W` = 32 bits (R6, R14, R53). -/
abbrev Word := BitVec 32

/-- A CRC-16 value (40_crc16.md R66). -/
abbrev Crc := BitVec 16

end Sys2Proof
end

