-- ==== Sys2Proof/Syntax.lean ====
section
/-! DEFINITION. The commands: one constructor per row of spec/opcode_table.json (30_encoding.md R54, R60, R64). -/
namespace Sys2Proof

/-- A command. The rows `FIELD.<name>` each fix one selector of FIELD; `field sel` is the generic row,
whose own words are those of a selector that no `FIELD.<name>` row fixes (INDEX.md, log 6). -/
inductive Instr where
  /-- NOP: no operation (R105) -/
  | nop
  /-- CRC16: CRC-16/MODBUS of the input buffer (R70) -/
  | crc16
  /-- XOR: mask of the input buffer (R76) -/
  | xor
  /-- FRAME: frame decode (R84) -/
  | frame
  /-- RECORD: telemetry record decode (R96) -/
  | record
  /-- FIELD: select one record field, selector given (R103) -/
  | field (sel : Byte)
  /-- DECODE: FRAME, then RECORD for a `Data` frame (R107) -/
  | decode
  /-- CLEAR: clear every result (R106) -/
  | clear
  /-- FIELD.SERIAL: selector 0x00 -/
  | fieldSerial
  /-- FIELD.RSV_10: selector 0x01 -/
  | fieldRsv10
  /-- FIELD.INVERTER_ID: selector 0x02 -/
  | fieldInverterId
  /-- FIELD.RSV_40: selector 0x03 -/
  | fieldRsv40
  /-- FIELD.TS_YEAR: selector 0x04 -/
  | fieldTsYear
  /-- FIELD.TS_MONTH: selector 0x05 -/
  | fieldTsMonth
  /-- FIELD.TS_DAY: selector 0x06 -/
  | fieldTsDay
  /-- FIELD.TS_HOUR: selector 0x07 -/
  | fieldTsHour
  /-- FIELD.TS_MINUTE: selector 0x08 -/
  | fieldTsMinute
  /-- FIELD.TS_SECOND: selector 0x09 -/
  | fieldTsSecond
  /-- FIELD.RSV_66: selector 0x0A -/
  | fieldRsv66
  /-- FIELD.STATUS: selector 0x0B -/
  | fieldStatus
  /-- FIELD.DC_INPUT_POWER: selector 0x0C -/
  | fieldDcInputPower
  /-- FIELD.PV1_VOLTAGE: selector 0x0D -/
  | fieldPv1Voltage
  /-- FIELD.PV1_CURRENT: selector 0x0E -/
  | fieldPv1Current
  /-- FIELD.PV1_POWER: selector 0x0F -/
  | fieldPv1Power
  /-- FIELD.PV2_VOLTAGE: selector 0x10 -/
  | fieldPv2Voltage
  /-- FIELD.PV2_CURRENT: selector 0x11 -/
  | fieldPv2Current
  /-- FIELD.PV2_POWER: selector 0x12 -/
  | fieldPv2Power
  /-- FIELD.PV_OUTPUT_POWER: selector 0x13 -/
  | fieldPvOutputPower
  /-- FIELD.FREQUENCY: selector 0x14 -/
  | fieldFrequency
  /-- FIELD.GRID_VOLTAGE: selector 0x15 -/
  | fieldGridVoltage
  /-- FIELD.RSV_101: selector 0x16 -/
  | fieldRsv101
  /-- FIELD.AC_ACTIVE_POWER: selector 0x17 -/
  | fieldAcActivePower
  /-- FIELD.AC_FREQUENCY: selector 0x18 -/
  | fieldAcFrequency
  /-- FIELD.AC1_VOLTAGE: selector 0x19 -/
  | fieldAc1Voltage
  /-- FIELD.AC1_CURRENT: selector 0x1A -/
  | fieldAc1Current
  /-- FIELD.AC1_POWER: selector 0x1B -/
  | fieldAc1Power
  /-- FIELD.RSV_131: selector 0x1C -/
  | fieldRsv131
  /-- FIELD.ENERGY_DAILY: selector 0x1D -/
  | fieldEnergyDaily
  /-- FIELD.RSV_173: selector 0x1E -/
  | fieldRsv173
  /-- FIELD.ENERGY_TOTAL: selector 0x1F -/
  | fieldEnergyTotal
  /-- FIELD.RSV_181: selector 0x20 -/
  | fieldRsv181
  /-- FIELD.BAT_DISCHARGE_POWER: selector 0x21 -/
  | fieldBatDischargePower
  /-- FIELD.BAT_CHARGE_POWER: selector 0x22 -/
  | fieldBatChargePower
  /-- FIELD.BAT_VOLTAGE: selector 0x23 -/
  | fieldBatVoltage
  /-- FIELD.SOC: selector 0x24 -/
  | fieldSoc
  /-- FIELD.LOAD_POWER: selector 0x25 -/
  | fieldLoadPower
  /-- FIELD.RSV_359: selector 0x26 -/
  | fieldRsv359
  /-- FIELD.BAT_TEMPERATURE: selector 0x27 -/
  | fieldBatTemperature
  /-- FIELD.EXTRA: selector 0x28 -/
  | fieldExtra
  deriving DecidableEq, Repr

end Sys2Proof
end

