-- ==== Sys2Proof/WellFormed.lean ====
section
/-! DEFINITION. Well-formed commands: the terms that stand for a command word of their own. -/
namespace Sys2Proof

/-- A command is well formed when some command word decodes to it. The one check: the generic FIELD
row keeps the selectors 0x29 to 0xFF, since a word of selector 0x00 to 0x28 is that of the row
`FIELD.<name>` (R64, INDEX.md, log 6). -/
def Instr.wellFormed : Instr → Bool
  | .nop => true
  | .crc16 => true
  | .xor => true
  | .frame => true
  | .record => true
  | .field sel => decide (0x28 < sel.toNat)
  | .decode => true
  | .clear => true
  | .fieldSerial => true
  | .fieldRsv10 => true
  | .fieldInverterId => true
  | .fieldRsv40 => true
  | .fieldTsYear => true
  | .fieldTsMonth => true
  | .fieldTsDay => true
  | .fieldTsHour => true
  | .fieldTsMinute => true
  | .fieldTsSecond => true
  | .fieldRsv66 => true
  | .fieldStatus => true
  | .fieldDcInputPower => true
  | .fieldPv1Voltage => true
  | .fieldPv1Current => true
  | .fieldPv1Power => true
  | .fieldPv2Voltage => true
  | .fieldPv2Current => true
  | .fieldPv2Power => true
  | .fieldPvOutputPower => true
  | .fieldFrequency => true
  | .fieldGridVoltage => true
  | .fieldRsv101 => true
  | .fieldAcActivePower => true
  | .fieldAcFrequency => true
  | .fieldAc1Voltage => true
  | .fieldAc1Current => true
  | .fieldAc1Power => true
  | .fieldRsv131 => true
  | .fieldEnergyDaily => true
  | .fieldRsv173 => true
  | .fieldEnergyTotal => true
  | .fieldRsv181 => true
  | .fieldBatDischargePower => true
  | .fieldBatChargePower => true
  | .fieldBatVoltage => true
  | .fieldSoc => true
  | .fieldLoadPower => true
  | .fieldRsv359 => true
  | .fieldBatTemperature => true
  | .fieldExtra => true

end Sys2Proof
end

