-- ==== Sys2Proof/Decode.lean ====
section
/-! DEFINITION. The command word: decoding, total on every word and rejecting by name, and after it the
encoder (30_encoding.md R53 to R56, R64). -/
namespace Sys2Proof

/-- Why a word encodes no command (R56). Every one of them ends in the error `IllegalCommand` (R104). -/
inductive DecodeError where
  /-- `w[31:16]` is not 0 -/
  | reservedBits (high : BitVec 16)
  /-- OP is 0x08 to 0xFF -/
  | unknownOp (op : Byte)
  /-- ARG is not 0 and OP is not FIELD -/
  | argNotZero (op arg : Byte)
  deriving DecidableEq, Repr

/-- OP = `w[7:0]` (R53). -/
def opField (w : Word) : Byte := w.extractLsb' 0 8
/-- ARG = `w[15:8]` (R53). -/
def argField (w : Word) : Byte := w.extractLsb' 8 8
/-- The reserved bits `w[31:16]` (R53). -/
def highField (w : Word) : BitVec 16 := w.extractLsb' 16 16

/-- The rows `FIELD.<name>` in selector order 0x00 to 0x28 (R60, R64). -/
def namedFields : List Instr :=
  [.fieldSerial, .fieldRsv10, .fieldInverterId, .fieldRsv40, .fieldTsYear, .fieldTsMonth, .fieldTsDay, .fieldTsHour, .fieldTsMinute, .fieldTsSecond] ++
  [.fieldRsv66, .fieldStatus, .fieldDcInputPower, .fieldPv1Voltage, .fieldPv1Current, .fieldPv1Power, .fieldPv2Voltage, .fieldPv2Current, .fieldPv2Power, .fieldPvOutputPower] ++
  [.fieldFrequency, .fieldGridVoltage, .fieldRsv101, .fieldAcActivePower, .fieldAcFrequency, .fieldAc1Voltage, .fieldAc1Current, .fieldAc1Power, .fieldRsv131, .fieldEnergyDaily] ++
  [.fieldRsv173, .fieldEnergyTotal, .fieldRsv181, .fieldBatDischargePower, .fieldBatChargePower, .fieldBatVoltage, .fieldSoc, .fieldLoadPower, .fieldRsv359, .fieldBatTemperature] ++
  [.fieldExtra]

/-- The command of a FIELD word with selector `sel`: the named row of that selector, else the generic row (R64). -/
def fieldInstr (sel : Byte) : Instr := namedFields.getD sel.toNat (.field sel)

/-- A command that takes no operand: ARG must be 0 (R53, R56). -/
def noArg (w : Word) (i : Instr) : Except DecodeError Instr :=
  if argField w = 0#8 then .ok i else .error (.argNotZero (opField w) (argField w))

/-- The command a word encodes (R53, R54, R56). It looks only at the word (R104). -/
def decode (w : Word) : Except DecodeError Instr :=
  if highField w ≠ 0#16 then .error (.reservedBits (highField w))
  else match (opField w).toNat with
    | 0x00 => noArg w .nop
    | 0x01 => noArg w .crc16
    | 0x02 => noArg w .xor
    | 0x03 => noArg w .frame
    | 0x04 => noArg w .record
    | 0x05 => .ok (fieldInstr (argField w))
    | 0x06 => noArg w .decode
    | 0x07 => noArg w .clear
    | _ => .error (.unknownOp (opField w))

/-- The command of the instruction whose bits are `w`, numbered as spec/opcode_table.json numbers them:
the command word itself, its bits above `nbits` 0. A command word is one 32-bit bus write, with no byte
order a program can see (R43, R53). -/
def decodeTableWord (nbits w : Nat) : Option Instr :=
  match decode (BitVec.ofNat 32 (w % 2 ^ nbits)) with
  | .ok i => some i
  | .error _ => none

/-- The command word `(ARG << 8) | OP` (R54). -/
def commandWord (op arg : Byte) : Word := (arg.setWidth 32 <<< 8) ||| op.setWidth 32

/-- The word of FIELD with selector `sel` (R54, R103). -/
def fieldWord (sel : Byte) : Word := commandWord 0x05#8 sel

/-- The command word of a command (R54, R64). -/
def encode : Instr → Word
  | .nop => commandWord 0x00#8 0#8
  | .crc16 => commandWord 0x01#8 0#8
  | .xor => commandWord 0x02#8 0#8
  | .frame => commandWord 0x03#8 0#8
  | .record => commandWord 0x04#8 0#8
  | .field sel => fieldWord sel
  | .decode => commandWord 0x06#8 0#8
  | .clear => commandWord 0x07#8 0#8
  | .fieldSerial => fieldWord 0x00#8
  | .fieldRsv10 => fieldWord 0x01#8
  | .fieldInverterId => fieldWord 0x02#8
  | .fieldRsv40 => fieldWord 0x03#8
  | .fieldTsYear => fieldWord 0x04#8
  | .fieldTsMonth => fieldWord 0x05#8
  | .fieldTsDay => fieldWord 0x06#8
  | .fieldTsHour => fieldWord 0x07#8
  | .fieldTsMinute => fieldWord 0x08#8
  | .fieldTsSecond => fieldWord 0x09#8
  | .fieldRsv66 => fieldWord 0x0A#8
  | .fieldStatus => fieldWord 0x0B#8
  | .fieldDcInputPower => fieldWord 0x0C#8
  | .fieldPv1Voltage => fieldWord 0x0D#8
  | .fieldPv1Current => fieldWord 0x0E#8
  | .fieldPv1Power => fieldWord 0x0F#8
  | .fieldPv2Voltage => fieldWord 0x10#8
  | .fieldPv2Current => fieldWord 0x11#8
  | .fieldPv2Power => fieldWord 0x12#8
  | .fieldPvOutputPower => fieldWord 0x13#8
  | .fieldFrequency => fieldWord 0x14#8
  | .fieldGridVoltage => fieldWord 0x15#8
  | .fieldRsv101 => fieldWord 0x16#8
  | .fieldAcActivePower => fieldWord 0x17#8
  | .fieldAcFrequency => fieldWord 0x18#8
  | .fieldAc1Voltage => fieldWord 0x19#8
  | .fieldAc1Current => fieldWord 0x1A#8
  | .fieldAc1Power => fieldWord 0x1B#8
  | .fieldRsv131 => fieldWord 0x1C#8
  | .fieldEnergyDaily => fieldWord 0x1D#8
  | .fieldRsv173 => fieldWord 0x1E#8
  | .fieldEnergyTotal => fieldWord 0x1F#8
  | .fieldRsv181 => fieldWord 0x20#8
  | .fieldBatDischargePower => fieldWord 0x21#8
  | .fieldBatChargePower => fieldWord 0x22#8
  | .fieldBatVoltage => fieldWord 0x23#8
  | .fieldSoc => fieldWord 0x24#8
  | .fieldLoadPower => fieldWord 0x25#8
  | .fieldRsv359 => fieldWord 0x26#8
  | .fieldBatTemperature => fieldWord 0x27#8
  | .fieldExtra => fieldWord 0x28#8

end Sys2Proof
end

