-- ==== Sys2Proof/Config.lean ====
section
/-! DEFINITION. The parameters of 00_scope.md R6 and the bus map constants of 20_memory.md R35, each at
the value the spec decides for the GFDC (log 11). The spec leaves no value open, so there is no free value. -/
namespace Sys2Proof.Config

/-- `IN_CAP`: capacity of IN_BUF in bytes (R6, D4). -/
def inCap : Nat := 65543
/-- `OUT_CAP`: capacity of OUT_BUF in bytes, equal to `IN_CAP` (R6, D4). -/
def outCap : Nat := inCap
/-- `MIN_FRAME`: minimum frame length (R6). -/
def minFrame : Nat := 10
/-- `HDR_LEN`: length of the header before the payload (R6). -/
def hdrLen : Nat := 8
/-- `CRC_LEN`: length of the trailing checksum (R6). -/
def crcLen : Nat := 2
/-- `KEY_LEN`: length of the XOR key (R6). -/
def keyLen : Nat := 7
/-- `REC_SIZE`: fixed telemetry record size (R6). -/
def recSize : Nat := 409
/-- `N_SEL`: number of defined field selectors (R6). -/
def nSel : Nat := 41
/-- `YEAR_BASE`: year added to the raw year byte (R6). -/
def yearBase : Nat := 2000
/-- `GFDC_BASE`: the block's base on the host bus, decided 0 (R35, D27). -/
def gfdcBase : Word := 0x00000000#32
/-- Size of the register window, 0x00 to 0xFF (R35). -/
def regWindow : Nat := 0x100
/-- Bus offset of IN_BUF[0] (R35). -/
def inBase : Nat := 0x00020000
/-- Bus offset of OUT_BUF[0] (R35). -/
def outBase : Nat := 0x00040000
/-- First bus offset past the OUT_BUF window, which ends at 0x0005FFFF (R35). -/
def outEnd : Nat := 0x00060000

end Sys2Proof.Config
end

