-- ==== Sys2Proof/Machine/State.lean ====
section
/-! DEFINITION. The state of the machine as plain data (10_state.md), the host's pending accesses, the
reasons a step can stop, and the state after reset (R33, R125). -/
namespace Sys2Proof.Machine

/-- The 27 interface registers, in the order of their offsets (10_state.md R15). -/
inductive Reg where
  | cmd | status | inLen | errA | errB | crcCalc | crcRx
  | hdrId | hdrProto | hdrDlen | hdrUnit | hdrKind | kindClass | outLen
  | extraLen | tsUnixLo | tsUnixHi | tsDate | tsTime
  | fSel | fOff | fWidth | fKind | fRaw | fExp | fInt | fFrac
  deriving DecidableEq, Repr

/-- The registers of the ERROR group (R19, R27); its flags ERR and ERR_CODE are in STATUS. -/
structure ErrorGroup where
  /-- ERR_A: first error detail -/
  errA : Word := 0#32
  /-- ERR_B: second error detail -/
  errB : Word := 0#32
  deriving DecidableEq, Repr

/-- The registers of the FRAME group (R20, R21, R22, R27); OUT_LEN is the length of OUT_BUF (R30, log 4)
and the flag FRAME_VALID is in STATUS. -/
structure FrameGroup where
  /-- CRC_CALC: the CRC-16 the core computed -/
  crcCalc : Word := 0#32
  /-- CRC_RX: the frame's checksum field -/
  crcRx : Word := 0#32
  /-- HDR_ID: `id` -/
  hdrId : Word := 0#32
  /-- HDR_PROTO: `protocol_id` -/
  hdrProto : Word := 0#32
  /-- HDR_DLEN: `declared_length` -/
  hdrDlen : Word := 0#32
  /-- HDR_UNIT: `unit_id` -/
  hdrUnit : Word := 0#32
  /-- HDR_KIND: the raw `kind` byte -/
  hdrKind : Word := 0#32
  /-- KIND_CLASS: the class of HDR_KIND (R59) -/
  kindClass : Word := 0#32
  deriving DecidableEq, Repr

/-- The registers of the RECORD group (R24, R25, R27); the flag REC_VALID is in STATUS. -/
structure RecordGroup where
  /-- EXTRA_LEN: payload bytes beyond the record -/
  extraLen : Word := 0#32
  /-- TS_UNIX_LO: bits 31..0 of the timestamp -/
  tsUnixLo : Word := 0#32
  /-- TS_UNIX_HI: bits 63..32 of the timestamp -/
  tsUnixHi : Word := 0#32
  /-- TS_DATE: year, month, day -/
  tsDate : Word := 0#32
  /-- TS_TIME: hour, minute, second -/
  tsTime : Word := 0#32
  deriving DecidableEq, Repr

/-- The registers of the FIELD group (R26, R27); the flag FIELD_VALID is in STATUS. -/
structure FieldGroup where
  /-- F_SEL: the selector -/
  fSel : Word := 0#32
  /-- F_OFF: payload byte offset -/
  fOff : Word := 0#32
  /-- F_WIDTH: width in bytes -/
  fWidth : Word := 0#32
  /-- F_KIND: 0 a number, 1 a byte range -/
  fKind : Word := 0#32
  /-- F_RAW: raw unsigned value -/
  fRaw : Word := 0#32
  /-- F_EXP: scale exponent `k` -/
  fExp : Word := 0#32
  /-- F_INT: `F_RAW div 10^k` -/
  fInt : Word := 0#32
  /-- F_FRAC: `F_RAW mod 10^k` -/
  fFrac : Word := 0#32
  deriving DecidableEq, Repr

/-- IN_BUF (R29): the written bytes as (index, byte) pairs, indices strictly rising. An unlisted index is
an unwritten byte, which has no value. -/
abbrev Memory := List Host.Cell

/-- The canonical form of a memory: indices strictly rising, so equal buffers are equal lists. An unlisted
index has no value, so no entry can equal one. -/
abbrev Memory.wf (m : Memory) : Prop := m.Pairwise (fun a b => a.1 < b.1)

/-- One thing the outside does to the core, at one point of the host's program order (R11, R36, R37, R47,
R125). -/
inductive HostAction where
  /-- a bus read of `width` bits at bus address `addr` -/
  | read (width : Nat) (addr : Word)
  /-- a bus write of `width` bits at bus address `addr`; the data are the low `width` bits (log 5) -/
  | write (width : Nat) (addr data : Word)
  /-- the platform asserts the reset input (R125, log 10) -/
  | reset
  deriving DecidableEq, Repr

/-- The state of the block (10_state.md) and of the host agent that drives it (R11, log 1, log 2). -/
structure State where
  /-- CMD: the last command word the host wrote (R16) -/
  cmd : Word
  /-- STATUS: flags and error code (R17) -/
  status : Word
  /-- IN_LEN: input length in bytes (R18) -/
  inLen : Word
  /-- ERR_A, ERR_B -/
  error : ErrorGroup
  /-- CRC_CALC to KIND_CLASS -/
  frame : FrameGroup
  /-- EXTRA_LEN, TS_* -/
  record : RecordGroup
  /-- F_* -/
  field : FieldGroup
  /-- IN_BUF (R29) -/
  inBuf : Memory
  /-- OUT_BUF, a byte sequence of length OUT_LEN (R30) -/
  outBuf : List Byte
  /-- the host's accesses and the resets still to come, oldest first (the model's own, log 1) -/
  pending : List HostAction
  /-- the values the host's reads returned, newest first (the model's own, log 2) -/
  received : List Word
  deriving DecidableEq, Repr

/-- The state after reset (R33, R125): every register 0, IN_BUF unwritten, OUT_BUF empty. The host agent's
lists are empty (log 1, log 2: DESIGN CHOICE, the model's own fields). -/
def State.reset : State where
  cmd := 0#32
  status := 0#32
  inLen := 0#32
  error := {}
  frame := {}
  record := {}
  field := {}
  inBuf := []
  outBuf := []
  pending := []
  received := []

/-- Why the machine stops with a fault. -/
inductive Fault where
  /-- Raised by FIELD and RECORD when OUT_BUF is shorter than the bytes they read. No run from reset
  meets it (R28 (b), R87). Safe: the model stops (log 7). -/
  | outBufRange
  deriving DecidableEq, Repr

/-- Why the model gives no step: the refusals of 60_exceptions.md R118. Each is safe: the model stops where
the hardware's behaviour is unspecified. -/
inductive Refusal where
  /-- F1: raised by a bus access to an unmapped address or a reserved register offset. Safe. -/
  | unmapped
  /-- F2: raised by a register access that is not 32 bits wide or not 4-byte aligned. Safe. -/
  | registerAccess
  /-- F3: raised by a bus write to a read-only register or to the OUT_BUF window. Safe. -/
  | readOnly
  /-- F4: raised by a bus write of IN_LEN above `IN_CAP`. Safe. -/
  | lengthAboveCap
  /-- F5: raised by a buffer access that is not 8 bits wide, or a read of OUT_BUF at or beyond OUT_LEN. Safe. -/
  | bufferAccess
  /-- F6: raised by a bus read of an unwritten IN_BUF byte. Safe. -/
  | unwrittenByte
  /-- F7: raised by CRC16, XOR, FRAME and DECODE when they would read an unwritten IN_BUF byte. Safe. -/
  | unwrittenInput
  /-- Raised by an arm of exec whose instruction has no meaning yet: none is left. Safe. -/
  | notModelled (mnemonic : String)
  deriving DecidableEq, Repr

end Sys2Proof.Machine
end

