-- ==== Sys2Proof/Machine/Flags.lean ====
section
/-! DEFINITION. The fields of STATUS (10_state.md R17) and the updates commands make to them. -/
namespace Sys2Proof.Machine

/-- STATUS[0] (R17). -/
def doneBit : Nat := 0
/-- STATUS[1] (R17); nothing sets it (R11, R129). -/
def busyBit : Nat := 1
/-- STATUS[2] (R17). -/
def errBit : Nat := 2
/-- STATUS[3] (R17). -/
def frameValidBit : Nat := 3
/-- STATUS[4] (R17). -/
def recValidBit : Nat := 4
/-- STATUS[5] (R17). -/
def fieldValidBit : Nat := 5

/-- The one-bit field `n` of a STATUS word. -/
def flag (n : Nat) (st : Word) : Bool := st.getLsbD n
/-- The STATUS word with bit `n` set. -/
def setFlag (n : Nat) (st : Word) : Word := st ||| (1#32 <<< n)
/-- The STATUS word with bit `n` cleared. -/
def clearFlag (n : Nat) (st : Word) : Word := st &&& ~~~(1#32 <<< n)
/-- ERR_CODE, STATUS[15:8] (R17). -/
def errCode (st : Word) : Byte := st.extractLsb' 8 8
/-- The STATUS word with ERR_CODE set to `c`. -/
def setErrCode (c : Byte) (st : Word) : Word := (st &&& ~~~0x0000FF00#32) ||| (c.setWidth 32 <<< 8)

/-- STATUS after ClearErr: ERR and ERR_CODE 0 (R27). -/
def statusClearErr (st : Word) : Word := setErrCode 0x00#8 (clearFlag errBit st)
/-- STATUS after `raise`: ERR 1 and ERR_CODE `c` (R110). -/
def statusRaise (c : Byte) (st : Word) : Word := setErrCode c (setFlag errBit st)

end Sys2Proof.Machine
end

