-- ==== Sys2Proof/Machine/Ops.lean ====
section
/-! DEFINITION. The named operations over registers and buffers: the register map, the reads of IN_BUF,
the clear operations, raising an error (the core's one exception operation, 60_exceptions.md R110), and
how a command ends. -/
namespace Sys2Proof.Machine

/-- The byte at index `a`, or none where no byte is written (R29, R38). -/
def Memory.read : Memory → Nat → Option Byte
  | [], _ => none
  | (k, b) :: m, a => if a = k then some b else Memory.read m a

/-- The buffer with byte `v` written at index `a`, in canonical form again (R37). -/
def Memory.write : Memory → Nat → Byte → Memory
  | [], a, v => [(a, v)]
  | (k, b) :: m, a, v =>
    if a < k then (a, v) :: (k, b) :: m
    else if a = k then (a, v) :: m
    else (k, b) :: Memory.write m a v

/-- The `n` bytes from index `i` on, or none when one of them is unwritten (R38). -/
def Memory.bytes (m : Memory) (i : Nat) : Nat → Option (List Byte)
  | 0 => some []
  | n + 1 =>
    match m.read i, Memory.bytes m (i + 1) n with
    | some b, some bs => some (b :: bs)
    | _, _ => none

/-- The input length `L` = IN_LEN (R18). -/
abbrev State.inputLength (s : State) : Nat := s.inLen.toNat

/-- IN_BUF[i, i + n), or none when the command would read an unwritten byte (R38, R118 F7). -/
abbrev State.inBytes (s : State) (i n : Nat) : Option (List Byte) := s.inBuf.bytes i n

/-- OUT_LEN: the number of bytes in OUT_BUF (R23, R30, log 4). -/
abbrev State.outLen (s : State) : Nat := s.outBuf.length

/-- `REG[name]`: the whole 32-bit value of a register (R14, R15). -/
def State.readReg (s : State) : Reg → Word
  | .cmd => s.cmd
  | .status => s.status
  | .inLen => s.inLen
  | .errA => s.error.errA
  | .errB => s.error.errB
  | .crcCalc => s.frame.crcCalc
  | .crcRx => s.frame.crcRx
  | .hdrId => s.frame.hdrId
  | .hdrProto => s.frame.hdrProto
  | .hdrDlen => s.frame.hdrDlen
  | .hdrUnit => s.frame.hdrUnit
  | .hdrKind => s.frame.hdrKind
  | .kindClass => s.frame.kindClass
  | .outLen => BitVec.ofNat 32 s.outLen
  | .extraLen => s.record.extraLen
  | .tsUnixLo => s.record.tsUnixLo
  | .tsUnixHi => s.record.tsUnixHi
  | .tsDate => s.record.tsDate
  | .tsTime => s.record.tsTime
  | .fSel => s.field.fSel
  | .fOff => s.field.fOff
  | .fWidth => s.field.fWidth
  | .fKind => s.field.fKind
  | .fRaw => s.field.fRaw
  | .fExp => s.field.fExp
  | .fInt => s.field.fInt
  | .fFrac => s.field.fFrac

/-- ClearErr (R27). -/
def State.clearErr (s : State) : State :=
  { s with status := statusClearErr s.status, error := {} }

/-- ClearFrame (R27); OUT_BUF becomes empty with OUT_LEN (R30). -/
def State.clearFrame (s : State) : State :=
  { s with status := clearFlag frameValidBit s.status, frame := {}, outBuf := [] }

/-- ClearRec (R27). -/
def State.clearRec (s : State) : State :=
  { s with status := clearFlag recValidBit s.status, record := {} }

/-- ClearField (R27). -/
def State.clearField (s : State) : State :=
  { s with status := clearFlag fieldValidBit s.status, field := {} }

/-- `ClearErr; ClearFrame; ClearRec; ClearField`, the start of CRC16, XOR, FRAME, DECODE and CLEAR. -/
def State.clearAll (s : State) : State := s.clearErr.clearFrame.clearRec.clearField

/-- `STATUS.DONE <- 1`, the end of every command (R104). -/
def State.setDone (s : State) : State := { s with status := setFlag doneBit s.status }

/-- The errors a command can end in, with what each reports (60_exceptions.md R111). -/
inductive CmdError where
  | truncated (needed available : Nat)
  | checksumMismatch (expected computed : Crc)
  | invalidTimestamp (y mo d h mi s : Byte)
  | lengthMismatch (needed available : Nat)
  | notData (frameValid : Bool) (kind : Word)
  | noRecord
  | badSelector (sel : Byte)
  | illegalCommand (w : Word)
  deriving DecidableEq, Repr

/-- The error code (R111). -/
def CmdError.code : CmdError → Byte
  | .truncated _ _ => 0x01#8
  | .checksumMismatch _ _ => 0x02#8
  | .invalidTimestamp _ _ _ _ _ _ => 0x03#8
  | .lengthMismatch _ _ => 0x04#8
  | .notData _ _ => 0x05#8
  | .noRecord => 0x06#8
  | .badSelector _ => 0x07#8
  | .illegalCommand _ => 0x08#8

/-- Three bytes packed into a register, `(a << 16) | (b << 8) | c` (R95, R111). -/
def pack3 (a b c : Nat) : Word := BitVec.ofNat 32 ((a <<< 16) ||| (b <<< 8) ||| c)

/-- The first detail value (R111). -/
def CmdError.detailA : CmdError → Word
  | .truncated needed _ => BitVec.ofNat 32 needed
  | .checksumMismatch expected _ => expected.setWidth 32
  | .invalidTimestamp y mo d _ _ _ => pack3 y.toNat mo.toNat d.toNat
  | .lengthMismatch needed _ => BitVec.ofNat 32 needed
  | .notData frameValid _ => if frameValid then 1#32 else 0#32
  | .noRecord => 0#32
  | .badSelector sel => sel.setWidth 32
  | .illegalCommand w => w

/-- The second detail value (R111). -/
def CmdError.detailB : CmdError → Word
  | .truncated _ available => BitVec.ofNat 32 available
  | .checksumMismatch _ computed => computed.setWidth 32
  | .invalidTimestamp _ _ _ h mi s => pack3 h.toNat mi.toNat s.toNat
  | .lengthMismatch _ available => BitVec.ofNat 32 available
  | .notData _ kind => kind
  | .noRecord => 0#32
  | .badSelector _ => 0#32
  | .illegalCommand _ => 0#32

/-- `raise E(a, b)` (R110). What remains of the command is skipped by the caller; it goes on at
`STATUS.DONE <- 1`. -/
def State.raise (s : State) (e : CmdError) : State :=
  { s with
    status := statusRaise e.code s.status
    error := { errA := e.detailA, errB := e.detailB } }

/-- What the checks of a command come to: its result, the error of the first failing check, or a stop. -/
inductive Attempt (α : Type) where
  | ok (a : α)
  | raised (e : CmdError)
  | refused (r : Refusal)
  | fault (f : Fault)
  deriving Repr

/-- The end of a command whose checks came to `a`: the result is committed to `s`, or the error raised in
`s`, and DONE is set (R104, R110); a stop gives no state. -/
def Attempt.settle {α : Type} (a : Attempt α) (s : State) (commit : State → α → State) :
    Host.Outcome State Fault Refusal :=
  match a with
  | .ok x => .next (commit s x).setDone
  | .raised e => .next (s.raise e).setDone
  | .refused r => .refused r
  | .fault f => .fault f

/-- The core step of a word that encodes no command: ClearErr, `raise IllegalCommand(w, 0)`, DONE; nothing
else changes (R56, R104). -/
def State.illegalWord (s : State) (w : Word) : State := (s.clearErr.raise (.illegalCommand w)).setDone

/-- Reset of the block (R125): every register, IN_BUF and OUT_BUF at their reset values. The host agent,
which is outside the block, keeps its lists (log 10). -/
def State.resetCore (s : State) : State :=
  { State.reset with pending := s.pending, received := s.received }

end Sys2Proof.Machine
end

