-- ==== Sys2Proof/Machine/Operands.lean ====
section
/-! DEFINITION. How commands read their operands: big-endian fields (00_scope.md R10), the record layout
(30_encoding.md R60) and the fixed-point scaler (44_field_select.md R99). -/
namespace Sys2Proof.Machine

/-- `s[i, i + n)` of a byte sequence (R7); shorter where the sequence ends. -/
def slice (l : List Byte) (i n : Nat) : List Byte := (l.drop i).take n

/-- `BE16`, `BE32`, `BEw`: the unsigned number whose bytes these are, most significant first (R10). -/
def be (l : List Byte) : Nat := l.foldl (fun acc b => (acc <<< 8) ||| b.toNat) 0

/-- The type of a record field (R60). -/
inductive FieldType where
  | u8 | u16 | u32 | bytes
  deriving DecidableEq, Repr

/-- One row of the record layout (R60). For `bytes` the exponent `k` is not read and stands at 0. -/
structure FieldRow where
  /-- the field's name -/
  name : String
  /-- payload byte offset -/
  off : Nat
  /-- width in bytes -/
  width : Nat
  /-- number or byte range -/
  type : FieldType
  /-- scale exponent -/
  k : Nat
  /-- the unit of the scaled value, for the reader -/
  unit : String
  deriving DecidableEq, Repr

/-- R60, selectors 0x00 to 0x09. -/
def layoutRows0 : List FieldRow := [
  ⟨"SERIAL", 0, 10, .bytes, 0, "ASCII text"⟩,
  ⟨"RSV_10", 10, 20, .bytes, 0, "reserved"⟩,
  ⟨"INVERTER_ID", 30, 10, .bytes, 0, "ASCII text"⟩,
  ⟨"RSV_40", 40, 20, .bytes, 0, "reserved"⟩,
  ⟨"TS_YEAR", 60, 1, .u8, 0, "year - 2000"⟩,
  ⟨"TS_MONTH", 61, 1, .u8, 0, "month"⟩,
  ⟨"TS_DAY", 62, 1, .u8, 0, "day"⟩,
  ⟨"TS_HOUR", 63, 1, .u8, 0, "hour"⟩,
  ⟨"TS_MINUTE", 64, 1, .u8, 0, "minute"⟩,
  ⟨"TS_SECOND", 65, 1, .u8, 0, "second"⟩]

/-- R60, selectors 0x0A to 0x13. -/
def layoutRows1 : List FieldRow := [
  ⟨"RSV_66", 66, 6, .bytes, 0, "reserved"⟩,
  ⟨"STATUS", 72, 1, .u8, 0, "raw status code"⟩,
  ⟨"DC_INPUT_POWER", 73, 4, .u32, 0, "raw power units"⟩,
  ⟨"PV1_VOLTAGE", 77, 2, .u16, 0, "raw"⟩,
  ⟨"PV1_CURRENT", 79, 2, .u16, 0, "raw"⟩,
  ⟨"PV1_POWER", 81, 4, .u32, 0, "raw"⟩,
  ⟨"PV2_VOLTAGE", 85, 2, .u16, 0, "raw"⟩,
  ⟨"PV2_CURRENT", 87, 2, .u16, 0, "raw"⟩,
  ⟨"PV2_POWER", 89, 4, .u32, 0, "raw"⟩,
  ⟨"PV_OUTPUT_POWER", 93, 4, .u32, 1, "W"⟩]

/-- R60, selectors 0x14 to 0x1D. -/
def layoutRows2 : List FieldRow := [
  ⟨"FREQUENCY", 97, 2, .u16, 2, "Hz"⟩,
  ⟨"GRID_VOLTAGE", 99, 2, .u16, 1, "V"⟩,
  ⟨"RSV_101", 101, 16, .bytes, 0, "reserved"⟩,
  ⟨"AC_ACTIVE_POWER", 117, 4, .u32, 0, "raw"⟩,
  ⟨"AC_FREQUENCY", 121, 2, .u16, 2, "Hz"⟩,
  ⟨"AC1_VOLTAGE", 123, 2, .u16, 0, "raw"⟩,
  ⟨"AC1_CURRENT", 125, 2, .u16, 0, "raw"⟩,
  ⟨"AC1_POWER", 127, 4, .u32, 0, "raw"⟩,
  ⟨"RSV_131", 131, 38, .bytes, 0, "reserved"⟩,
  ⟨"ENERGY_DAILY", 169, 4, .u32, 0, "raw"⟩]

/-- R60, selectors 0x1E to 0x27. -/
def layoutRows3 : List FieldRow := [
  ⟨"RSV_173", 173, 4, .bytes, 0, "reserved"⟩,
  ⟨"ENERGY_TOTAL", 177, 4, .u32, 0, "raw"⟩,
  ⟨"RSV_181", 181, 162, .bytes, 0, "reserved"⟩,
  ⟨"BAT_DISCHARGE_POWER", 343, 4, .u32, 1, "W"⟩,
  ⟨"BAT_CHARGE_POWER", 347, 4, .u32, 1, "W"⟩,
  ⟨"BAT_VOLTAGE", 351, 2, .u16, 1, "V"⟩,
  ⟨"SOC", 353, 2, .u16, 2, "percent"⟩,
  ⟨"LOAD_POWER", 355, 4, .u32, 1, "W"⟩,
  ⟨"RSV_359", 359, 48, .bytes, 0, "reserved"⟩,
  ⟨"BAT_TEMPERATURE", 407, 2, .u16, 1, "°C"⟩]

/-- The 40 fields of the fixed record in selector order (R60). -/
def layoutTable : List FieldRow := layoutRows0 ++ layoutRows1 ++ layoutRows2 ++ layoutRows3

/-- The row EXTRA, selector 0x28: everything past the record; its width is EXTRA_LEN (R60, R97). -/
def extraRow (extraLen : Nat) : FieldRow := ⟨"EXTRA", 409, extraLen, .bytes, 0, "not interpreted"⟩

/-- `Layout(sel)` (R97), none for a selector 0x29 to 0xFF. -/
def layout (extraLen : Nat) (sel : Byte) : Option FieldRow :=
  if sel = 0x28#8 then some (extraRow extraLen) else layoutTable[sel.toNat]?

/-- The FIELD group for a byte range: its place, and no number (R101). -/
def bytesField (sel : Byte) (row : FieldRow) : FieldGroup where
  fSel := sel.setWidth 32
  fOff := BitVec.ofNat 32 row.off
  fWidth := BitVec.ofNat 32 row.width
  fKind := 1#32

/-- The FIELD group for a number `raw`, scaled exactly by `10^-k` (R98, R99). -/
def numberField (sel : Byte) (row : FieldRow) (raw : Nat) : FieldGroup where
  fSel := sel.setWidth 32
  fOff := BitVec.ofNat 32 row.off
  fWidth := BitVec.ofNat 32 row.width
  fKind := 0#32
  fRaw := BitVec.ofNat 32 raw
  fExp := BitVec.ofNat 32 row.k
  fInt := BitVec.ofNat 32 (raw / 10 ^ row.k)
  fFrac := BitVec.ofNat 32 (raw % 10 ^ row.k)

end Sys2Proof.Machine
end

