-- ==== Sys2Proof/Machine/XorMask.lean ====
section
/-! DEFINITION. The XOR deobfuscator (41_xor_mask.md): the key, the mask and the command XOR. -/
namespace Sys2Proof.Machine

/-- The 7 bytes of the key "Growatt" (R31, R72). -/
def keyBytes : List Byte := [0x47#8, 0x72#8, 0x6F#8, 0x77#8, 0x61#8, 0x74#8, 0x74#8]

/-- `KEY[i mod 7]` (R72, R73). -/
def key (i : Nat) : Byte := keyBytes.getD (i % Config.keyLen) 0#8

/-- The mask of a sequence whose first byte stands at position `i` (R73). -/
def maskFrom (i : Nat) : List Byte → List Byte
  | [] => []
  | b :: bs => (b ^^^ key i) :: maskFrom (i + 1) bs

/-- `Mask(s)` (R73). -/
def mask (s : List Byte) : List Byte := maskFrom 0 s

/-- XOR (R76): FRAME_VALID stays 0, OUT_LEN becomes `L` with OUT_BUF. -/
def execXor (s : State) : Host.Outcome State Fault Refusal :=
  let s0 := s.clearAll
  match s0.inBytes 0 s0.inputLength with
  | none => .refused .unwrittenInput
  | some bs => .next { s0 with outBuf := mask bs }.setDone

end Sys2Proof.Machine
end

