-- ==== Sys2Proof/Machine/Frame.lean ====
section
/-! DEFINITION. The frame decoder (42_frame_decode.md): FrameDecode and the command FRAME. -/
namespace Sys2Proof.Machine

/-- `class(kind)`, the KIND_CLASS number of a kind byte (R59, R78). -/
def kindClassOf (kind : Byte) : Nat :=
  match kind.toNat with
  | 0x03 => 1
  | 0x04 => 2
  | 0x16 => 3
  | 0x18 => 4
  | 0x19 => 5
  | 0x20 => 6
  | 0x50 => 7
  | _ => 0

/-- A decoded frame, held internally until it is committed (R77, R80, R81). -/
structure FrameResult where
  /-- `id` -/
  id : Nat
  /-- `protocol_id` -/
  proto : Nat
  /-- `declared_length` -/
  dl : Nat
  /-- `unit_id` -/
  unit : Byte
  /-- the raw `kind` byte -/
  kind : Byte
  /-- the checksum field -/
  rx : Crc
  /-- the computed checksum -/
  computed : Crc
  /-- the de-obfuscated payload -/
  payload : List Byte
  deriving DecidableEq, Repr

/-- The header of a frame: `id`, `protocol_id`, `declared_length`, `unit_id`, `kind` (R77). -/
structure Header where
  /-- `id` -/
  id : Nat
  /-- `protocol_id` -/
  proto : Nat
  /-- `declared_length` -/
  dl : Nat
  /-- `unit_id` -/
  unit : Byte
  /-- the raw `kind` byte -/
  kind : Byte
  deriving DecidableEq, Repr

/-- The header parse (R77), none when one of the bytes 0 to 7 is unwritten. -/
def headerParse (s : State) : Option Header :=
  match s.inBytes 0 Config.hdrLen with
  | some [i0, i1, p0, p1, d0, d1, unit, kind] =>
    some { id := be [i0, i1], proto := be [p0, p1], dl := be [d0, d1], unit := unit, kind := kind }
  | _ => none

/-- The checksum check and the de-obfuscation of a buffer whose length agrees with its header (R80, R81):
the checksum is over the bytes as received, and nothing is unmasked before it matches (R132). -/
def frameBody (h : Header) (bytes : List Byte) : Attempt FrameResult :=
  let n := bytes.length - Config.crcLen
  let computed := crc16 (bytes.take n)
  let rx : Crc := BitVec.ofNat 16 (be (slice bytes n Config.crcLen))
  if rx ≠ computed then .raised (.checksumMismatch rx computed)
  else .ok { id := h.id, proto := h.proto, dl := h.dl, unit := h.unit, kind := h.kind,
             rx := rx, computed := computed,
             payload := mask (slice bytes Config.hdrLen (n - Config.hdrLen)) }

/-- `FrameDecode()` (R84): the length checks in the order of R79, then the body. It reads nothing when
`L < 10`, bytes 0 to 7 before the other length checks, and all of IN_BUF[0, L) after them (R118 F7). -/
def frameDecode (s : State) : Attempt FrameResult :=
  let L := s.inputLength
  if L < Config.minFrame then .raised (.truncated Config.minFrame L)
  else match headerParse s with
    | none => .refused .unwrittenInput
    | some h =>
      let need := h.dl + 8
      if L < need then .raised (.truncated need L)
      else if need < L then .raised (.lengthMismatch need L)
      else match s.inBytes 0 L with
        | none => .refused .unwrittenInput
        | some bytes => frameBody h bytes

/-- The commit of a decoded frame (R82). -/
def State.commitFrame (s : State) (f : FrameResult) : State :=
  { s with
    status := setFlag frameValidBit s.status
    frame :=
      { hdrId := BitVec.ofNat 32 f.id
        hdrProto := BitVec.ofNat 32 f.proto
        hdrDlen := BitVec.ofNat 32 f.dl
        hdrUnit := f.unit.setWidth 32
        hdrKind := f.kind.setWidth 32
        kindClass := BitVec.ofNat 32 (kindClassOf f.kind)
        crcRx := f.rx.setWidth 32
        crcCalc := f.computed.setWidth 32 }
    outBuf := f.payload }

/-- FRAME (R84, R85). -/
def execFrame (s : State) : Host.Outcome State Fault Refusal :=
  let s0 := s.clearAll
  (frameDecode s0).settle s0 State.commitFrame

end Sys2Proof.Machine
end

