-- ==== Sys2Proof/Machine/Record.lean ====
section
/-! DEFINITION. The telemetry record decoder (43_record_decode.md): the timestamp, RecordDecode and the
command RECORD. -/
namespace Sys2Proof.Machine

/-- The six raw date and time bytes of a record (R89). -/
structure RawTime where
  /-- year byte, the year minus 2000 -/
  y : Byte
  /-- month -/
  mo : Byte
  /-- day -/
  d : Byte
  /-- hour -/
  h : Byte
  /-- minute -/
  mi : Byte
  /-- second -/
  s : Byte
  deriving DecidableEq, Repr

/-- `Y`, the full year (R89). -/
def RawTime.year (t : RawTime) : Nat := Config.yearBase + t.y.toNat

/-- `leap(Y)` (R90). -/
def leap (Y : Nat) : Bool := Y % 4 == 0 && (Y % 100 != 0 || Y % 400 == 0)

/-- `dim(Y, mo)`, the days of a month (R90); 0 for a number that is no month. -/
def dim (Y mo : Nat) : Nat :=
  match mo with
  | 1 | 3 | 5 | 7 | 8 | 10 | 12 => 31
  | 4 | 6 | 9 | 11 => 30
  | 2 => if leap Y then 29 else 28
  | _ => 0

/-- The timestamp is a valid calendar date and time (R90). -/
def RawTime.valid (t : RawTime) : Bool :=
  decide (1 ≤ t.mo.toNat) && decide (t.mo.toNat ≤ 12) &&
  decide (1 ≤ t.d.toNat) && decide (t.d.toNat ≤ dim t.year t.mo.toNat) &&
  decide (t.h.toNat ≤ 23) && decide (t.mi.toNat ≤ 59) && decide (t.s.toNat ≤ 59)

/-- `cum[1..12]`, the days before each month of a common year (R91). -/
def cumDays : List Nat := [0, 31, 59, 90, 120, 151, 181, 212, 243, 273, 304, 334]

/-- `days`, the days from 1970-01-01 to the date `Y-mo-d` (R91). -/
def unixDays (Y mo d : Nat) : Nat :=
  let nleap := (Y - 1) / 4 - (Y - 1) / 100 + (Y - 1) / 400 - 477
  365 * (Y - 1970) + nleap + cumDays.getD (mo - 1) 0 + (if 2 < mo ∧ leap Y then 1 else 0) + (d - 1)

/-- `unix`, the seconds since 1970-01-01T00:00:00Z (R91). -/
def RawTime.unix (t : RawTime) : Nat :=
  unixDays t.year t.mo.toNat t.d.toNat * 86400 + t.h.toNat * 3600 + t.mi.toNat * 60 + t.s.toNat

/-- The six raw bytes of a payload, at offsets 60 to 65 (R89). -/
def rawTimeOf (payload : List Byte) : Option RawTime :=
  match slice payload 60 6 with
  | [y, mo, d, h, mi, s] => some { y := y, mo := mo, d := d, h := h, mi := mi, s := s }
  | _ => none

/-- `RecordDecode()` (R96): the precondition (R86), the size (R87), the timestamp (R90). -/
def recordDecode (s : State) : Attempt RawTime :=
  let fv := flag frameValidBit s.status
  let kind := s.frame.hdrKind
  if fv = false ∨ kind ≠ 0x04#32 then .raised (.notData fv kind)
  else if s.outLen < Config.recSize then .raised (.truncated Config.recSize s.outLen)
  else match rawTimeOf s.outBuf with
    | none => .fault .outBufRange
    | some t => if t.valid then .ok t else .raised (.invalidTimestamp t.y t.mo t.d t.h t.mi t.s)

/-- The commit of a decoded record (R95). OUT_BUF, with its identity, reserved and extra bytes, is kept
(R92, R93, R94). -/
def State.commitRecord (s : State) (t : RawTime) : State :=
  { s with
    status := setFlag recValidBit s.status
    record :=
      { tsUnixLo := BitVec.ofNat 32 t.unix
        tsUnixHi := BitVec.ofNat 32 (t.unix >>> 32)
        tsDate := pack3 t.year t.mo.toNat t.d.toNat
        tsTime := pack3 t.h.toNat t.mi.toNat t.s.toNat
        extraLen := BitVec.ofNat 32 (s.outLen - Config.recSize) } }

/-- RECORD (R96): the FRAME group is kept. -/
def execRecord (s : State) : Host.Outcome State Fault Refusal :=
  let s0 := s.clearErr.clearRec.clearField
  (recordDecode s0).settle s0 State.commitRecord

end Sys2Proof.Machine
end

