-- ==== Sys2Proof/Machine/Control.lean ====
section
/-! DEFINITION. The control commands (45_control.md): NOP, CLEAR and the composite DECODE. -/
namespace Sys2Proof.Machine

/-- NOP (R105): DONE only. -/
def execNop (s : State) : Host.Outcome State Fault Refusal := .next s.setDone

/-- CLEAR (R106). -/
def execClear (s : State) : Host.Outcome State Fault Refusal := .next s.clearAll.setDone

/-- DECODE (R107): FrameDecode; then, for a `Data` frame, RecordDecode on the committed frame, whose failure
keeps the frame. -/
def execDecode (s : State) : Host.Outcome State Fault Refusal :=
  let s0 := s.clearAll
  match frameDecode s0 with
  | .ok f =>
    let s1 := s0.commitFrame f
    if s1.frame.hdrKind = 0x04#32 then (recordDecode s1).settle s1 State.commitRecord
    else .next s1.setDone
  | .raised e => .next (s0.raise e).setDone
  | .refused r => .refused r
  | .fault f => .fault f

end Sys2Proof.Machine
end

