-- ==== Sys2Proof/Machine/Field.lean ====
section
/-! DEFINITION. The field selector (44_field_select.md): the command FIELD and its 41 named rows. -/
namespace Sys2Proof.Machine

/-- The checks and the extraction of FIELD with selector `sel` (R103): BadSelector, then NoRecord, then the
row's place and, for a number, its raw and scaled value. -/
def fieldSelect (s : State) (sel : Byte) : Attempt FieldGroup :=
  match layout s.record.extraLen.toNat sel with
  | none => .raised (.badSelector sel)
  | some row =>
    if flag recValidBit s.status = false then .raised .noRecord
    else if row.type = .bytes then .ok (bytesField sel row)
    else if s.outLen < row.off + row.width then .fault .outBufRange
    else .ok (numberField sel row (be (slice s.outBuf row.off row.width)))

/-- The commit of a selected field (R103). -/
def State.commitField (s : State) (f : FieldGroup) : State :=
  { s with status := setFlag fieldValidBit s.status, field := f }

/-- The command FIELD with selector `sel` (R103): the FRAME and RECORD groups are kept. -/
def fieldCommand (sel : Byte) (s : State) : Host.Outcome State Fault Refusal :=
  let s0 := s.clearErr.clearField
  (fieldSelect s0 sel).settle s0 State.commitField

/-- FIELD (R103). -/
def execField (sel : Byte) (s : State) : Host.Outcome State Fault Refusal := fieldCommand sel s

/-- FIELD.SERIAL (R60, R103). -/
def execFieldSerial (s : State) : Host.Outcome State Fault Refusal := fieldCommand 0x00#8 s
/-- FIELD.RSV_10 (R60, R103). -/
def execFieldRsv10 (s : State) : Host.Outcome State Fault Refusal := fieldCommand 0x01#8 s
/-- FIELD.INVERTER_ID (R60, R103). -/
def execFieldInverterId (s : State) : Host.Outcome State Fault Refusal := fieldCommand 0x02#8 s
/-- FIELD.RSV_40 (R60, R103). -/
def execFieldRsv40 (s : State) : Host.Outcome State Fault Refusal := fieldCommand 0x03#8 s
/-- FIELD.TS_YEAR (R60, R103). -/
def execFieldTsYear (s : State) : Host.Outcome State Fault Refusal := fieldCommand 0x04#8 s
/-- FIELD.TS_MONTH (R60, R103). -/
def execFieldTsMonth (s : State) : Host.Outcome State Fault Refusal := fieldCommand 0x05#8 s
/-- FIELD.TS_DAY (R60, R103). -/
def execFieldTsDay (s : State) : Host.Outcome State Fault Refusal := fieldCommand 0x06#8 s
/-- FIELD.TS_HOUR (R60, R103). -/
def execFieldTsHour (s : State) : Host.Outcome State Fault Refusal := fieldCommand 0x07#8 s
/-- FIELD.TS_MINUTE (R60, R103). -/
def execFieldTsMinute (s : State) : Host.Outcome State Fault Refusal := fieldCommand 0x08#8 s
/-- FIELD.TS_SECOND (R60, R103). -/
def execFieldTsSecond (s : State) : Host.Outcome State Fault Refusal := fieldCommand 0x09#8 s
/-- FIELD.RSV_66 (R60, R103). -/
def execFieldRsv66 (s : State) : Host.Outcome State Fault Refusal := fieldCommand 0x0A#8 s
/-- FIELD.STATUS (R60, R103). -/
def execFieldStatus (s : State) : Host.Outcome State Fault Refusal := fieldCommand 0x0B#8 s
/-- FIELD.DC_INPUT_POWER (R60, R103). -/
def execFieldDcInputPower (s : State) : Host.Outcome State Fault Refusal := fieldCommand 0x0C#8 s
/-- FIELD.PV1_VOLTAGE (R60, R103). -/
def execFieldPv1Voltage (s : State) : Host.Outcome State Fault Refusal := fieldCommand 0x0D#8 s
/-- FIELD.PV1_CURRENT (R60, R103). -/
def execFieldPv1Current (s : State) : Host.Outcome State Fault Refusal := fieldCommand 0x0E#8 s
/-- FIELD.PV1_POWER (R60, R103). -/
def execFieldPv1Power (s : State) : Host.Outcome State Fault Refusal := fieldCommand 0x0F#8 s
/-- FIELD.PV2_VOLTAGE (R60, R103). -/
def execFieldPv2Voltage (s : State) : Host.Outcome State Fault Refusal := fieldCommand 0x10#8 s
/-- FIELD.PV2_CURRENT (R60, R103). -/
def execFieldPv2Current (s : State) : Host.Outcome State Fault Refusal := fieldCommand 0x11#8 s
/-- FIELD.PV2_POWER (R60, R103). -/
def execFieldPv2Power (s : State) : Host.Outcome State Fault Refusal := fieldCommand 0x12#8 s
/-- FIELD.PV_OUTPUT_POWER (R60, R103). -/
def execFieldPvOutputPower (s : State) : Host.Outcome State Fault Refusal := fieldCommand 0x13#8 s
/-- FIELD.FREQUENCY (R60, R103). -/
def execFieldFrequency (s : State) : Host.Outcome State Fault Refusal := fieldCommand 0x14#8 s
/-- FIELD.GRID_VOLTAGE (R60, R103). -/
def execFieldGridVoltage (s : State) : Host.Outcome State Fault Refusal := fieldCommand 0x15#8 s
/-- FIELD.RSV_101 (R60, R103). -/
def execFieldRsv101 (s : State) : Host.Outcome State Fault Refusal := fieldCommand 0x16#8 s
/-- FIELD.AC_ACTIVE_POWER (R60, R103). -/
def execFieldAcActivePower (s : State) : Host.Outcome State Fault Refusal := fieldCommand 0x17#8 s
/-- FIELD.AC_FREQUENCY (R60, R103). -/
def execFieldAcFrequency (s : State) : Host.Outcome State Fault Refusal := fieldCommand 0x18#8 s
/-- FIELD.AC1_VOLTAGE (R60, R103). -/
def execFieldAc1Voltage (s : State) : Host.Outcome State Fault Refusal := fieldCommand 0x19#8 s
/-- FIELD.AC1_CURRENT (R60, R103). -/
def execFieldAc1Current (s : State) : Host.Outcome State Fault Refusal := fieldCommand 0x1A#8 s
/-- FIELD.AC1_POWER (R60, R103). -/
def execFieldAc1Power (s : State) : Host.Outcome State Fault Refusal := fieldCommand 0x1B#8 s
/-- FIELD.RSV_131 (R60, R103). -/
def execFieldRsv131 (s : State) : Host.Outcome State Fault Refusal := fieldCommand 0x1C#8 s
/-- FIELD.ENERGY_DAILY (R60, R103). -/
def execFieldEnergyDaily (s : State) : Host.Outcome State Fault Refusal := fieldCommand 0x1D#8 s
/-- FIELD.RSV_173 (R60, R103). -/
def execFieldRsv173 (s : State) : Host.Outcome State Fault Refusal := fieldCommand 0x1E#8 s
/-- FIELD.ENERGY_TOTAL (R60, R103). -/
def execFieldEnergyTotal (s : State) : Host.Outcome State Fault Refusal := fieldCommand 0x1F#8 s
/-- FIELD.RSV_181 (R60, R103). -/
def execFieldRsv181 (s : State) : Host.Outcome State Fault Refusal := fieldCommand 0x20#8 s
/-- FIELD.BAT_DISCHARGE_POWER (R60, R103). -/
def execFieldBatDischargePower (s : State) : Host.Outcome State Fault Refusal := fieldCommand 0x21#8 s
/-- FIELD.BAT_CHARGE_POWER (R60, R103). -/
def execFieldBatChargePower (s : State) : Host.Outcome State Fault Refusal := fieldCommand 0x22#8 s
/-- FIELD.BAT_VOLTAGE (R60, R103). -/
def execFieldBatVoltage (s : State) : Host.Outcome State Fault Refusal := fieldCommand 0x23#8 s
/-- FIELD.SOC (R60, R103). -/
def execFieldSoc (s : State) : Host.Outcome State Fault Refusal := fieldCommand 0x24#8 s
/-- FIELD.LOAD_POWER (R60, R103). -/
def execFieldLoadPower (s : State) : Host.Outcome State Fault Refusal := fieldCommand 0x25#8 s
/-- FIELD.RSV_359 (R60, R103). -/
def execFieldRsv359 (s : State) : Host.Outcome State Fault Refusal := fieldCommand 0x26#8 s
/-- FIELD.BAT_TEMPERATURE (R60, R103). -/
def execFieldBatTemperature (s : State) : Host.Outcome State Fault Refusal := fieldCommand 0x27#8 s
/-- FIELD.EXTRA (R60, R103). -/
def execFieldExtra (s : State) : Host.Outcome State Fault Refusal := fieldCommand 0x28#8 s

end Sys2Proof.Machine
end

