-- ==== Sys2Proof/Machine/Dispatch.lean ====
section
/-! DEFINITION. The dispatch of a command to its meaning (45_control.md R104), one arm per constructor. -/
namespace Sys2Proof.Machine
open Sys2Proof

def exec (i : Instr) (s : State) : Host.Outcome State Fault Refusal :=
  match i with
  | .nop => Sys2Proof.Machine.execNop s
  | .crc16 => Sys2Proof.Machine.execCrc16 s
  | .xor => Sys2Proof.Machine.execXor s
  | .frame => Sys2Proof.Machine.execFrame s
  | .record => Sys2Proof.Machine.execRecord s
  | .field sel => Sys2Proof.Machine.execField sel s
  | .decode => Sys2Proof.Machine.execDecode s
  | .clear => Sys2Proof.Machine.execClear s
  | .fieldSerial => Sys2Proof.Machine.execFieldSerial s
  | .fieldRsv10 => Sys2Proof.Machine.execFieldRsv10 s
  | .fieldInverterId => Sys2Proof.Machine.execFieldInverterId s
  | .fieldRsv40 => Sys2Proof.Machine.execFieldRsv40 s
  | .fieldTsYear => Sys2Proof.Machine.execFieldTsYear s
  | .fieldTsMonth => Sys2Proof.Machine.execFieldTsMonth s
  | .fieldTsDay => Sys2Proof.Machine.execFieldTsDay s
  | .fieldTsHour => Sys2Proof.Machine.execFieldTsHour s
  | .fieldTsMinute => Sys2Proof.Machine.execFieldTsMinute s
  | .fieldTsSecond => Sys2Proof.Machine.execFieldTsSecond s
  | .fieldRsv66 => Sys2Proof.Machine.execFieldRsv66 s
  | .fieldStatus => Sys2Proof.Machine.execFieldStatus s
  | .fieldDcInputPower => Sys2Proof.Machine.execFieldDcInputPower s
  | .fieldPv1Voltage => Sys2Proof.Machine.execFieldPv1Voltage s
  | .fieldPv1Current => Sys2Proof.Machine.execFieldPv1Current s
  | .fieldPv1Power => Sys2Proof.Machine.execFieldPv1Power s
  | .fieldPv2Voltage => Sys2Proof.Machine.execFieldPv2Voltage s
  | .fieldPv2Current => Sys2Proof.Machine.execFieldPv2Current s
  | .fieldPv2Power => Sys2Proof.Machine.execFieldPv2Power s
  | .fieldPvOutputPower => Sys2Proof.Machine.execFieldPvOutputPower s
  | .fieldFrequency => Sys2Proof.Machine.execFieldFrequency s
  | .fieldGridVoltage => Sys2Proof.Machine.execFieldGridVoltage s
  | .fieldRsv101 => Sys2Proof.Machine.execFieldRsv101 s
  | .fieldAcActivePower => Sys2Proof.Machine.execFieldAcActivePower s
  | .fieldAcFrequency => Sys2Proof.Machine.execFieldAcFrequency s
  | .fieldAc1Voltage => Sys2Proof.Machine.execFieldAc1Voltage s
  | .fieldAc1Current => Sys2Proof.Machine.execFieldAc1Current s
  | .fieldAc1Power => Sys2Proof.Machine.execFieldAc1Power s
  | .fieldRsv131 => Sys2Proof.Machine.execFieldRsv131 s
  | .fieldEnergyDaily => Sys2Proof.Machine.execFieldEnergyDaily s
  | .fieldRsv173 => Sys2Proof.Machine.execFieldRsv173 s
  | .fieldEnergyTotal => Sys2Proof.Machine.execFieldEnergyTotal s
  | .fieldRsv181 => Sys2Proof.Machine.execFieldRsv181 s
  | .fieldBatDischargePower => Sys2Proof.Machine.execFieldBatDischargePower s
  | .fieldBatChargePower => Sys2Proof.Machine.execFieldBatChargePower s
  | .fieldBatVoltage => Sys2Proof.Machine.execFieldBatVoltage s
  | .fieldSoc => Sys2Proof.Machine.execFieldSoc s
  | .fieldLoadPower => Sys2Proof.Machine.execFieldLoadPower s
  | .fieldRsv359 => Sys2Proof.Machine.execFieldRsv359 s
  | .fieldBatTemperature => Sys2Proof.Machine.execFieldBatTemperature s
  | .fieldExtra => Sys2Proof.Machine.execFieldExtra s

end Sys2Proof.Machine
end

