-- ==== Sys2Proof/Machine/Bus.lean ====
section
/-! DEFINITION. The host bus (20_memory.md): the address map, reads, writes, the refusals of
60_exceptions.md R118, and the start of a command by a write of CMD (10_state.md R16). -/
namespace Sys2Proof.Machine

/-- The byte offset of a register in the register window (10_state.md R15). -/
def Reg.offset : Reg → Nat
  | .cmd => 0x00
  | .status => 0x04
  | .inLen => 0x08
  | .errA => 0x0C
  | .errB => 0x10
  | .crcCalc => 0x14
  | .crcRx => 0x18
  | .hdrId => 0x1C
  | .hdrProto => 0x20
  | .hdrDlen => 0x24
  | .hdrUnit => 0x28
  | .hdrKind => 0x2C
  | .kindClass => 0x30
  | .outLen => 0x34
  | .extraLen => 0x38
  | .tsUnixLo => 0x3C
  | .tsUnixHi => 0x40
  | .tsDate => 0x44
  | .tsTime => 0x48
  | .fSel => 0x4C
  | .fOff => 0x50
  | .fWidth => 0x54
  | .fKind => 0x58
  | .fRaw => 0x5C
  | .fExp => 0x60
  | .fInt => 0x64
  | .fFrac => 0x68

/-- The registers (R15). -/
def allRegs : List Reg :=
  [.cmd, .status, .inLen, .errA, .errB, .crcCalc, .crcRx] ++
  [.hdrId, .hdrProto, .hdrDlen, .hdrUnit, .hdrKind, .kindClass, .outLen] ++
  [.extraLen, .tsUnixLo, .tsUnixHi, .tsDate, .tsTime] ++
  [.fSel, .fOff, .fWidth, .fKind, .fRaw, .fExp, .fInt, .fFrac]

/-- The register whose four bytes hold the window offset `off`, none in the reserved range 0x6C to 0xFF (R15). -/
def regAt (off : Nat) : Option Reg :=
  allRegs.find? (fun r => decide (r.offset ≤ off) && decide (off < r.offset + 4))

/-- What a bus address reaches (R35). -/
inductive Target where
  | register (r : Reg) (aligned : Bool)
  | inBuf (i : Nat)
  | outBuf (i : Nat)
  | unmapped
  deriving DecidableEq, Repr

/-- The address map (R35), the addresses being offsets from the block's base. -/
def target (addr : Word) : Target :=
  let a := (addr - Config.gfdcBase).toNat
  if a < Config.regWindow then
    match regAt a with
    | some r => .register r (decide (a = r.offset))
    | none => .unmapped
  else if Config.inBase ≤ a ∧ a < Config.inBase + Config.inCap then .inBuf (a - Config.inBase)
  else if Config.outBase ≤ a ∧ a < Config.outEnd then .outBuf (a - Config.outBase)
  else .unmapped

/-- A host read: the value it returns, or why it is refused (R36, R37, R118). A byte is returned in the low
8 bits. Where several refusals apply the first in the order of this definition is named (log 3). -/
def busRead (s : State) (width : Nat) (addr : Word) : Except Refusal Word :=
  match target addr with
  | .unmapped => .error .unmapped
  | .register r aligned =>
    if width = 32 ∧ aligned then .ok (s.readReg r) else .error .registerAccess
  | .inBuf i =>
    if width ≠ 8 then .error .bufferAccess
    else match s.inBuf.read i with
      | some b => .ok (b.setWidth 32)
      | none => .error .unwrittenByte
  | .outBuf i =>
    if width ≠ 8 then .error .bufferAccess
    else match s.outBuf[i]? with
      | some b => .ok (b.setWidth 32)
      | none => .error .bufferAccess

/-- The core step a write of `w` to CMD causes (R16, R104): the command `w` encodes, or IllegalCommand. -/
def coreStep (w : Word) (s : State) : Host.Outcome State Fault Refusal :=
  match decode w with
  | .ok i => exec i s
  | .error _ => .next (s.illegalWord w)

/-- A host write (R16, R18, R36, R37, R118). -/
def busWrite (s : State) (width : Nat) (addr data : Word) : Host.Outcome State Fault Refusal :=
  match target addr with
  | .unmapped => .refused .unmapped
  | .register r aligned =>
    if width = 32 ∧ aligned then
      match r with
      | .cmd => coreStep data { s with cmd := data }
      | .inLen =>
        if data.toNat ≤ Config.inCap then .next { s with inLen := data } else .refused .lengthAboveCap
      | _ => .refused .readOnly
    else .refused .registerAccess
  | .inBuf i =>
    if width ≠ 8 then .refused .bufferAccess
    else .next { s with inBuf := s.inBuf.write i (data.setWidth 8) }
  | .outBuf _ => .refused .readOnly

/-- One thing the outside does (R11, R125). A read has no effect on the block (R36, R37, R45); the value it
returns goes to the host's list. -/
def hostAct (a : HostAction) (s : State) : Host.Outcome State Fault Refusal :=
  match a with
  | .read width addr =>
    match busRead s width addr with
    | .ok v => .next { s with received := v :: s.received }
    | .error r => .refused r
  | .write width addr data => busWrite s width addr data
  | .reset => .next s.resetCore

/-- The host's next access, taken off its list; with nothing pending the core is idle and all state is
retained (R11, R47, R124, log 1). -/
def hostStep (s : State) : Host.Outcome State Fault Refusal :=
  match s.pending with
  | [] => .next s
  | a :: rest => hostAct a { s with pending := rest }

/-- The bus access that starts a command: a 32-bit write of the command word to CMD (R16, R36). -/
def cmdWrite (w : Word) : HostAction := .write 32 Config.gfdcBase w

end Sys2Proof.Machine
end

