-- ==== Sys2Proof/Machine/Step.lean ====
section
/-! DEFINITION. One step of the machine, and the placing of a command where the next step takes it. -/
namespace Sys2Proof.Machine

/-- One step: the host's next access (R11, R47), and with it the core's step when the access is a write of
CMD (R16). -/
def step (s : State) : Host.Outcome State Fault Refusal := hostStep s

/-- The state in which the host's next access writes the command word `w`, its bits above `nbits` 0, to CMD
(log 1): the core fetches nothing, a command comes with a write of CMD (R13, R16). -/
def State.withFetchWord (s : State) (nbits w : Nat) : State :=
  { s with pending := cmdWrite (BitVec.ofNat 32 (w % 2 ^ nbits)) :: s.pending }

end Sys2Proof.Machine
end

