-- ==== Sys2Proof/Safety.lean ====
section
/-! DEFINITION. What the statements are said in: the input of a command, the invariant of every reachable
state (10_state.md R28 and the value ranges of R14 to R30), the states commands end in, and, written from
the spec apart from the model's own functions, the illegal words (R56), the calendar (R90, R91) and the
record layout (R60). -/
namespace Sys2Proof.Machine

/-- IN_LEN and IN_BUF hold the input `bs`: `L` is its length, and each of its bytes is written (R18, R29). -/
def State.inputIs (s : State) (bs : List Byte) : Prop :=
  s.inLen.toNat = bs.length ∧ ∀ i, i < bs.length → s.inBuf.read i = bs[i]?

/-- What holds in every state reachable from reset: R28 (a) to (e), the values outside a valid group
(R19 to R26), the reserved bits (R14, R17), the ranges of the narrow registers (R15, R59, R111), the
capacities (R18, R30) and the canonical form of IN_BUF. -/
structure State.Inv (s : State) : Prop where
  /-- IN_BUF is in canonical form -/
  inBuf_wf : s.inBuf.wf
  /-- IN_BUF has `IN_CAP` bytes (R29) -/
  inBuf_range : ∀ c ∈ s.inBuf, c.1 < 65543
  /-- IN_LEN is legal (R15, R18) -/
  inLen_le : s.inLen.toNat ≤ 65543
  /-- OUT_BUF has at most `OUT_CAP` bytes (R30) -/
  outBuf_le : s.outBuf.length ≤ 65543
  /-- BUSY and the reserved bits of STATUS read 0 (R14, R17, R28 (e)) -/
  reserved : s.status &&& 0xFFFF00C2#32 = 0#32
  /-- ERR is 1 exactly when ERR_CODE is not 0 (R17, R28 (d)) -/
  err_iff : flag errBit s.status = true ↔ errCode s.status ≠ 0x00#8
  /-- ERR_A and ERR_B are 0 when ERR_CODE is 0 (R19, R28 (d)) -/
  no_err : errCode s.status = 0x00#8 → s.error = {}
  /-- ERR_CODE is one of the codes 0 to 8 (R111) -/
  errCode_le : (errCode s.status).toNat ≤ 8
  /-- R28 (a), and KIND_CLASS is the class of HDR_KIND (R22) -/
  frame_valid : flag frameValidBit s.status = true →
    s.outBuf.length + 2 = s.frame.hdrDlen.toNat ∧ s.frame.crcRx = s.frame.crcCalc ∧
    s.frame.kindClass = BitVec.ofNat 32 (kindClassOf (s.frame.hdrKind.setWidth 8))
  /-- without a decoded frame every FRAME register but CRC_CALC is 0 (R20 to R22, R27) -/
  frame_invalid : flag frameValidBit s.status = false → s.frame = { crcCalc := s.frame.crcCalc }
  /-- R28 (b) -/
  rec_valid : flag recValidBit s.status = true →
    flag frameValidBit s.status = true ∧ s.frame.hdrKind = 0x04#32 ∧
    s.record.extraLen.toNat + 409 = s.outBuf.length
  /-- without a decoded record the RECORD group is 0 (R24, R25, R27) -/
  rec_invalid : flag recValidBit s.status = false → s.record = {}
  /-- R28 (c) -/
  field_valid : flag fieldValidBit s.status = true → flag recValidBit s.status = true
  /-- without a selected field the FIELD group is 0 (R26, R27) -/
  field_invalid : flag fieldValidBit s.status = false → s.field = {}
  /-- CRC_CALC and CRC_RX are 16 bits (R15, R20) -/
  crc_range : s.frame.crcCalc.toNat < 65536 ∧ s.frame.crcRx.toNat < 65536
  /-- HDR_ID, HDR_PROTO and HDR_DLEN are 16 bits, HDR_UNIT and HDR_KIND 8 bits (R15, R21) -/
  hdr_range : s.frame.hdrId.toNat < 65536 ∧ s.frame.hdrProto.toNat < 65536 ∧
    s.frame.hdrDlen.toNat < 65536 ∧ s.frame.hdrUnit.toNat < 256 ∧ s.frame.hdrKind.toNat < 256
  /-- KIND_CLASS is 0 to 7 (R59) -/
  class_le : s.frame.kindClass.toNat ≤ 7
  /-- TS_TIME[31:24] reads 0 (R25) -/
  time_range : s.record.tsTime.toNat < 16777216
  /-- F_SEL is a defined selector, F_KIND one bit, F_EXP 0 to 2 (R26, R64, R99) -/
  field_range : s.field.fSel.toNat ≤ 0x28 ∧ s.field.fKind.toNat ≤ 1 ∧ s.field.fExp.toNat ≤ 2

/-- The state in which a command that clears every group ends, with STATUS fields `st` and nothing but those
(R27, R104): BUSY and the reserved bits of STATUS are as they were. -/
def State.clearedWith (s : State) (st : Word) : State :=
  { s with
    status := (s.status &&& 0xFFFF00C2#32) ||| st
    error := {}
    frame := {}
    record := {}
    field := {}
    outBuf := [] }

/-- The state in which FRAME or DECODE ends with an error of FrameDecode (R84, R110): `st` holds DONE, ERR
and ERR_CODE. -/
def State.frameFailed (s : State) (st a b : Word) : State :=
  { s.clearedWith st with error := { errA := a, errB := b } }

/-- The state in which RECORD ends with an error (R96, R110): the FRAME group is kept. -/
def State.recordFailed (s : State) (st a b : Word) : State :=
  { s with
    status := (s.status &&& 0xFFFF00CA#32) ||| st
    error := { errA := a, errB := b }
    record := {}
    field := {} }

/-- The state in which FIELD ends (R103): the FRAME and RECORD groups are kept. -/
def State.fieldEnd (s : State) (st : Word) (e : ErrorGroup) (f : FieldGroup) : State :=
  { s with
    status := (s.status &&& 0xFFFF00DA#32) ||| st
    error := e
    field := f }

/-- The part of a wire frame its checksum covers: header and payload as received (R57, R71). -/
def wireBody (i0 i1 p0 p1 d0 d1 unit kind : Byte) (pl : List Byte) : List Byte :=
  [i0, i1, p0, p1, d0, d1, unit, kind] ++ pl

/-- The FRAME group after a successful frame decode (R82), each 16-bit field of two bytes, first byte high (R10). -/
def frameGroupOf (i0 i1 p0 p1 d0 d1 unit kind c0 c1 : Byte) : FrameGroup where
  crcCalc := (c0 ++ c1 : BitVec 16).setWidth 32
  crcRx := (c0 ++ c1 : BitVec 16).setWidth 32
  hdrId := (i0 ++ i1 : BitVec 16).setWidth 32
  hdrProto := (p0 ++ p1 : BitVec 16).setWidth 32
  hdrDlen := (d0 ++ d1 : BitVec 16).setWidth 32
  hdrUnit := unit.setWidth 32
  hdrKind := kind.setWidth 32
  kindClass := BitVec.ofNat 32 (kindClassOf kind)

/-- The interface registers: offset and content (R15). -/
def registerMap : List (Word × (State → Word)) :=
  [(0x00#32, fun s => s.cmd), (0x04#32, fun s => s.status), (0x08#32, fun s => s.inLen),
   (0x0C#32, fun s => s.error.errA), (0x10#32, fun s => s.error.errB),
   (0x14#32, fun s => s.frame.crcCalc), (0x18#32, fun s => s.frame.crcRx),
   (0x1C#32, fun s => s.frame.hdrId), (0x20#32, fun s => s.frame.hdrProto),
   (0x24#32, fun s => s.frame.hdrDlen), (0x28#32, fun s => s.frame.hdrUnit),
   (0x2C#32, fun s => s.frame.hdrKind), (0x30#32, fun s => s.frame.kindClass)] ++
  [(0x34#32, fun s => BitVec.ofNat 32 s.outBuf.length), (0x38#32, fun s => s.record.extraLen),
   (0x3C#32, fun s => s.record.tsUnixLo), (0x40#32, fun s => s.record.tsUnixHi),
   (0x44#32, fun s => s.record.tsDate), (0x48#32, fun s => s.record.tsTime)] ++
  [(0x4C#32, fun s => s.field.fSel), (0x50#32, fun s => s.field.fOff),
   (0x54#32, fun s => s.field.fWidth), (0x58#32, fun s => s.field.fKind),
   (0x5C#32, fun s => s.field.fRaw), (0x60#32, fun s => s.field.fExp),
   (0x64#32, fun s => s.field.fInt), (0x68#32, fun s => s.field.fFrac)]

/-- A command word is illegal (R56). -/
abbrev illegalWord (w : Word) : Prop :=
  w.toNat / 65536 ≠ 0 ∨ 0x08 ≤ w.toNat % 256 ∨ (w.toNat / 256 % 256 ≠ 0 ∧ w.toNat % 256 ≠ 0x05)

/-- A leap year of the Gregorian calendar (R90). -/
abbrev leapYear (Y : Nat) : Prop := Y % 4 = 0 ∧ (Y % 100 ≠ 0 ∨ Y % 400 = 0)

/-- The number of days of month `mo` of year `Y` (R90). -/
def monthDays (Y mo : Nat) : Nat :=
  if mo = 2 then (if leapYear Y then 29 else 28)
  else if mo = 4 ∨ mo = 6 ∨ mo = 9 ∨ mo = 11 then 30
  else 31

/-- The days from 1970-01-01 to the first day of year `1970 + n`, counted year by year (R91). -/
def daysToYear : Nat → Nat
  | 0 => 0
  | n + 1 => daysToYear n + (if leapYear (1970 + n) then 366 else 365)

/-- The days from the first day of year `Y` to the first day of month `m + 1`, counted month by month (R91). -/
def daysToMonth (Y : Nat) : Nat → Nat
  | 0 => 0
  | m + 1 => daysToMonth Y m + monthDays Y (m + 1)

/-- The six bytes are a valid calendar date and time (R90). -/
abbrev validDateTime (y mo d h mi s : Byte) : Prop :=
  (1 ≤ mo.toNat ∧ mo.toNat ≤ 12) ∧
  (1 ≤ d.toNat ∧ d.toNat ≤ monthDays (2000 + y.toNat) mo.toNat) ∧
  h.toNat ≤ 23 ∧ mi.toNat ≤ 59 ∧ s.toNat ≤ 59

/-- The seconds from 1970-01-01T00:00:00Z to the date and time of the six bytes, by counting days (R91). -/
def secondsSinceEpoch (y mo d h mi s : Byte) : Nat :=
  (daysToYear (30 + y.toNat) + daysToMonth (2000 + y.toNat) (mo.toNat - 1) + (d.toNat - 1)) * 86400 +
    h.toNat * 3600 + mi.toNat * 60 + s.toNat

/-- The RECORD group after a successful record decode of a `P`-byte payload (R95). -/
def recordGroupOf (P : Nat) (y mo d h mi s : Byte) : RecordGroup where
  extraLen := BitVec.ofNat 32 (P - 409)
  tsUnixLo := BitVec.ofNat 32 (secondsSinceEpoch y mo d h mi s % 4294967296)
  tsUnixHi := BitVec.ofNat 32 (secondsSinceEpoch y mo d h mi s / 4294967296)
  tsDate := BitVec.ofNat 32 ((2000 + y.toNat) * 65536 + mo.toNat * 256 + d.toNat)
  tsTime := BitVec.ofNat 32 (h.toNat * 65536 + mi.toNat * 256 + s.toNat)

/-- The payload bytes 60 to 65 are these six (R89). -/
abbrev State.timeBytes (s : State) (y mo d h mi sec : Byte) : Prop :=
  s.outBuf[60]? = some y ∧ s.outBuf[61]? = some mo ∧ s.outBuf[62]? = some d ∧
  s.outBuf[63]? = some h ∧ s.outBuf[64]? = some mi ∧ s.outBuf[65]? = some sec

/-- The number whose bytes these are, most significant first (R10). -/
def beValue : List Byte → Nat
  | [] => 0
  | b :: bs => b.toNat * 256 ^ bs.length + beValue bs

/-- A row of the record layout (R60) as a statement uses it: command, selector, offset, width. -/
structure FieldClaim where
  /-- the command of the row -/
  cmd : Instr
  /-- its selector -/
  sel : Byte
  /-- payload byte offset -/
  off : Nat
  /-- width in bytes -/
  width : Nat
  deriving DecidableEq, Repr

/-- The numeric fields of R60 with scale exponent 0. -/
def numericRows0 : List FieldClaim := [
  ⟨.fieldTsYear, 0x04#8, 60, 1⟩,
  ⟨.fieldTsMonth, 0x05#8, 61, 1⟩,
  ⟨.fieldTsDay, 0x06#8, 62, 1⟩,
  ⟨.fieldTsHour, 0x07#8, 63, 1⟩,
  ⟨.fieldTsMinute, 0x08#8, 64, 1⟩,
  ⟨.fieldTsSecond, 0x09#8, 65, 1⟩,
  ⟨.fieldStatus, 0x0B#8, 72, 1⟩,
  ⟨.fieldDcInputPower, 0x0C#8, 73, 4⟩,
  ⟨.fieldPv1Voltage, 0x0D#8, 77, 2⟩,
  ⟨.fieldPv1Current, 0x0E#8, 79, 2⟩,
  ⟨.fieldPv1Power, 0x0F#8, 81, 4⟩,
  ⟨.fieldPv2Voltage, 0x10#8, 85, 2⟩,
  ⟨.fieldPv2Current, 0x11#8, 87, 2⟩,
  ⟨.fieldPv2Power, 0x12#8, 89, 4⟩,
  ⟨.fieldAcActivePower, 0x17#8, 117, 4⟩,
  ⟨.fieldAc1Voltage, 0x19#8, 123, 2⟩,
  ⟨.fieldAc1Current, 0x1A#8, 125, 2⟩,
  ⟨.fieldAc1Power, 0x1B#8, 127, 4⟩,
  ⟨.fieldEnergyDaily, 0x1D#8, 169, 4⟩,
  ⟨.fieldEnergyTotal, 0x1F#8, 177, 4⟩]

/-- The numeric fields of R60 with scale exponent 1. -/
def numericRows1 : List FieldClaim := [
  ⟨.fieldPvOutputPower, 0x13#8, 93, 4⟩,
  ⟨.fieldGridVoltage, 0x15#8, 99, 2⟩,
  ⟨.fieldBatDischargePower, 0x21#8, 343, 4⟩,
  ⟨.fieldBatChargePower, 0x22#8, 347, 4⟩,
  ⟨.fieldBatVoltage, 0x23#8, 351, 2⟩,
  ⟨.fieldLoadPower, 0x25#8, 355, 4⟩,
  ⟨.fieldBatTemperature, 0x27#8, 407, 2⟩]

/-- The numeric fields of R60 with scale exponent 2. -/
def numericRows2 : List FieldClaim := [
  ⟨.fieldFrequency, 0x14#8, 97, 2⟩,
  ⟨.fieldAcFrequency, 0x18#8, 121, 2⟩,
  ⟨.fieldSoc, 0x24#8, 353, 2⟩]

/-- The byte ranges of R60 within the fixed record. -/
def byteRows : List FieldClaim := [
  ⟨.fieldSerial, 0x00#8, 0, 10⟩,
  ⟨.fieldRsv10, 0x01#8, 10, 20⟩,
  ⟨.fieldInverterId, 0x02#8, 30, 10⟩,
  ⟨.fieldRsv40, 0x03#8, 40, 20⟩,
  ⟨.fieldRsv66, 0x0A#8, 66, 6⟩,
  ⟨.fieldRsv101, 0x16#8, 101, 16⟩,
  ⟨.fieldRsv131, 0x1C#8, 131, 38⟩,
  ⟨.fieldRsv173, 0x1E#8, 173, 4⟩,
  ⟨.fieldRsv181, 0x20#8, 181, 162⟩,
  ⟨.fieldRsv359, 0x26#8, 359, 48⟩]

/-- Every row of R60, EXTRA with a width of 0 standing for `P - 409`. -/
def allFieldRows : List FieldClaim :=
  numericRows0 ++ numericRows1 ++ numericRows2 ++ byteRows ++ [⟨.fieldExtra, 0x28#8, 409, 0⟩]

/-- The FIELD group for a number (R98, R99, R103). -/
def numberGroupOf (r : FieldClaim) (k raw : Nat) : FieldGroup where
  fSel := r.sel.setWidth 32
  fOff := BitVec.ofNat 32 r.off
  fWidth := BitVec.ofNat 32 r.width
  fKind := 0#32
  fRaw := BitVec.ofNat 32 raw
  fExp := BitVec.ofNat 32 k
  fInt := BitVec.ofNat 32 (raw / 10 ^ k)
  fFrac := BitVec.ofNat 32 (raw % 10 ^ k)

end Sys2Proof.Machine
end

