-- ==== Sys2Proof/Certificates/Slice0/Obligations.lean ====
section
/-! DEFINITION. The statements for the provers. A record update writes the next state whole: every part of
the state that an update does not name is unchanged, so each such equation is its command's frame as well
(every register, every STATUS bit, every byte of both buffers, the host's lists). The groups `{}` have
every register 0. The masks over STATUS keep the bits a command does not write: 0xFFFF00C2 are BUSY and
the reserved bits, 0xFFFF00CA those and FRAME_VALID, 0xFFFF00DA those and REC_VALID. -/
open Sys2Proof Sys2Proof.Machine

/-! ## Encoding -/

/-- R53, R54, R64: decoding the word of a well-formed command gives the command back. -/
def Obligations.EncodedCommandDecodesBack : Prop :=
  ∀ i : Instr, i.wellFormed = true → decode (encode i) = .ok i

/-- R53, R54, R56: a word that decodes to a command is that command's word, so no two words share one. -/
def Obligations.DecodedWordEncodesBack : Prop :=
  ∀ (w : Word) (i : Instr), decode w = .ok i → i.wellFormed = true ∧ encode i = w

/-- R56: exactly the illegal words encode no command, and the core step of one ends with IllegalCommand and
changes nothing but the ERROR group and DONE; a FIELD word of an undefined selector is legal and ends with
BadSelector. -/
def Obligations.IllegalWordsAreExactlyThese : Prop :=
  (∀ w : Word, (∃ e, decode w = .error e) ↔ illegalWord w) ∧
  (∀ (w : Word) (s : State), illegalWord w →
    coreStep w s = .next { s with
      status := (s.status &&& 0xFFFF00FF#32) ||| 0x00000805#32
      error := { errA := w, errB := 0#32 } }) ∧
  (∀ (sel : Byte) (s : State), 0x29 ≤ sel.toNat →
    coreStep (BitVec.ofNat 32 (sel.toNat * 256 + 5)) s =
      .next (s.fieldEnd 0x00000705#32 { errA := sel.setWidth 32, errB := 0#32 } {}))

/-- Words written out from R53 and R54 decode to the commands they stand for. -/
def Obligations.SpecWordsDecode : Prop :=
  decode 0x00000000#32 = .ok .nop ∧ decode 0x00000001#32 = .ok .crc16 ∧
  decode 0x00000002#32 = .ok .xor ∧ decode 0x00000003#32 = .ok .frame ∧
  decode 0x00000004#32 = .ok .record ∧ decode 0x00000006#32 = .ok .decode ∧
  decode 0x00000007#32 = .ok .clear ∧ decode 0x00002405#32 = .ok .fieldSoc ∧
  decode 0x00002905#32 = .ok (.field 0x29#8)

/-! ## Steps, host accesses and reset -/

/-- R11, R16, R104: when the host's next access writes a word that decodes to `i` to CMD, the step is `exec i`
on the state with the word in CMD and the access off the host's list; when it encodes nothing, the step is
that of an illegal word. -/
def Obligations.StepRunsTheWrittenCommand : Prop :=
  (∀ (s : State) (w : Word) (i : Instr) (rest : List HostAction),
    s.pending = .write 32 0x00000000#32 w :: rest → decode w = .ok i →
      step s = exec i { s with pending := rest, cmd := w }) ∧
  (∀ (s : State) (w : Word) (e : DecodeError) (rest : List HostAction),
    s.pending = .write 32 0x00000000#32 w :: rest → decode w = .error e →
      step s = .next (State.illegalWord { s with pending := rest, cmd := w } w))

/-- R16: CMD holds the last word written, legal or not; a write runs it; a read returns it and has no side
effect; no core step writes CMD. -/
def Obligations.CmdHoldsTheLastWord : Prop :=
  (∀ (s : State) (w : Word) (rest : List HostAction), s.pending = .write 32 0x00000000#32 w :: rest →
    step s = coreStep w { s with pending := rest, cmd := w }) ∧
  (∀ (w : Word) (s : State) (i : Instr), decode w = .ok i → coreStep w s = exec i s) ∧
  (∀ (w : Word) (s : State) (e : DecodeError), decode w = .error e →
    coreStep w s = .next (State.illegalWord s w)) ∧
  (∀ (s : State) (rest : List HostAction), s.pending = .read 32 0x00000000#32 :: rest →
    step s = .next { s with pending := rest, received := s.cmd :: s.received }) ∧
  (∀ (w : Word) (s t : State), coreStep w s = .next t → t.cmd = s.cmd)

/-- The model's choice for the host's lists (logs 1, 2 and 10), after R124's "it is idle between commands with all
state retained": with no access pending the step changes nothing, and a reset leaves the accesses still to come and the
values already read. -/
def Obligations.IdleAndResetKeepTheHostLists : Prop :=
  (∀ s : State, s.pending = [] → step s = .next s) ∧
  (∀ (s : State) (rest : List HostAction), s.pending = .reset :: rest →
    ∃ t, step s = .next t ∧ t.pending = rest ∧ t.received = s.received)

/-- R125: a reset between two host accesses leaves every register 0, every IN_BUF byte unwritten and OUT_BUF
empty. -/
def Obligations.ResetActionClearsTheBlock : Prop :=
  ∀ (s : State) (rest : List HostAction), s.pending = .reset :: rest →
    ∃ t, step s = .next t ∧ (∀ r : Reg, t.readReg r = 0#32) ∧
      (∀ a, t.inBuf.read a = none) ∧ t.outBuf = []

/-- R33: the state after reset. -/
def Obligations.ResetStateValues : Prop :=
  (∀ r : Reg, State.reset.readReg r = 0x00000000#32) ∧
  (∀ a, State.reset.inBuf.read a = none) ∧ State.reset.outBuf = []

/-- R36, the 27 registers at the offsets of R15: a read returns the whole value and has no side effect; a write of
CMD runs the word, a write of IN_LEN stores the length; an access of another width or alignment and a write of
any other register are refused. -/
def Obligations.RegisterWindowAccesses : Prop :=
  ∀ (s : State) (rest : List HostAction),
    (∀ r ∈ registerMap, s.pending = .read 32 r.1 :: rest →
      step s = .next { s with pending := rest, received := r.2 s :: s.received }) ∧
    (∀ v, s.pending = .write 32 0x00000000#32 v :: rest →
      step s = coreStep v { s with pending := rest, cmd := v }) ∧
    (∀ v : Word, v.toNat ≤ 65543 → s.pending = .write 32 0x00000008#32 v :: rest →
      step s = .next { s with pending := rest, inLen := v }) ∧
    (∀ (width : Nat) (addr : Word), addr.toNat < 0x6C → (width ≠ 32 ∨ addr.toNat % 4 ≠ 0) →
      (s.pending = .read width addr :: rest → step s = .refused .registerAccess) ∧
      (∀ v, s.pending = .write width addr v :: rest → ∃ r, step s = .refused r)) ∧
    (∀ addr v : Word, addr.toNat < 0x6C → addr.toNat % 4 = 0 → addr ≠ 0x00000000#32 →
      addr ≠ 0x00000008#32 → s.pending = .write 32 addr v :: rest → step s = .refused .readOnly)

/-- R35, R118 F1: every access at a reserved register offset or an unmapped address is refused; that the refusal
named is F1 for every width is the model's choice (log 3). -/
def Obligations.UnmappedAccessesAreRefused : Prop :=
  ∀ (s : State) (rest : List HostAction) (width : Nat) (addr : Word),
    ((0x6C ≤ addr.toNat ∧ addr.toNat < 0x00020000) ∨
     (0x00020000 + 65543 ≤ addr.toNat ∧ addr.toNat < 0x00040000) ∨ 0x00060000 ≤ addr.toNat) →
    (s.pending = .read width addr :: rest → step s = .refused .unmapped) ∧
    (∀ v, s.pending = .write width addr v :: rest → step s = .refused .unmapped)

/-- R18: a write of IN_LEN up to IN_CAP stores the length, a greater one is refused, and no command writes IN_LEN. -/
def Obligations.InLenIsTheInputLength : Prop :=
  (∀ (s : State) (v : Word) (rest : List HostAction), v.toNat ≤ 65543 →
    s.pending = .write 32 0x00000008#32 v :: rest →
      step s = .next { s with pending := rest, inLen := v }) ∧
  (∀ (s : State) (v : Word) (rest : List HostAction), 65543 < v.toNat →
    s.pending = .write 32 0x00000008#32 v :: rest → step s = .refused .lengthAboveCap) ∧
  (∀ (w : Word) (s t : State), coreStep w s = .next t → t.inLen = s.inLen)

/-- R37: byte writes and reads of IN_BUF, byte reads of OUT_BUF, and the refusals of every other access to the two
windows; none of them changes a register. -/
def Obligations.BufferWindowAccesses : Prop :=
  ∀ (s : State) (rest : List HostAction),
    (∀ (i : Nat) (b : Byte), i < 65543 →
      s.pending = .write 8 (BitVec.ofNat 32 (0x00020000 + i)) (b.setWidth 32) :: rest →
      ∃ t, step s = .next t ∧ t = { s with pending := rest, inBuf := t.inBuf } ∧
        t.inBuf.read i = some b ∧ ∀ j, j ≠ i → t.inBuf.read j = s.inBuf.read j) ∧
    (∀ (i : Nat) (b : Byte), i < 65543 → s.inBuf.read i = some b →
      s.pending = .read 8 (BitVec.ofNat 32 (0x00020000 + i)) :: rest →
      step s = .next { s with pending := rest, received := b.setWidth 32 :: s.received }) ∧
    (∀ i : Nat, i < 65543 → s.inBuf.read i = none →
      s.pending = .read 8 (BitVec.ofNat 32 (0x00020000 + i)) :: rest → step s = .refused .unwrittenByte) ∧
    (∀ (i : Nat) (b : Byte), i < 0x20000 → s.outBuf[i]? = some b →
      s.pending = .read 8 (BitVec.ofNat 32 (0x00040000 + i)) :: rest →
      step s = .next { s with pending := rest, received := b.setWidth 32 :: s.received }) ∧
    (∀ i : Nat, i < 0x20000 → s.outBuf.length ≤ i →
      s.pending = .read 8 (BitVec.ofNat 32 (0x00040000 + i)) :: rest → step s = .refused .bufferAccess) ∧
    (∀ (i width : Nat) (v : Word), i < 0x20000 →
      s.pending = .write width (BitVec.ofNat 32 (0x00040000 + i)) v :: rest →
      ∃ r, step s = .refused r ∧ (width = 8 → r = .readOnly)) ∧
    (∀ i width : Nat, i < 0x20000 → width ≠ 8 →
      s.pending = .read width (BitVec.ofNat 32 (0x00040000 + i)) :: rest → step s = .refused .bufferAccess) ∧
    (∀ i width : Nat, i < 65543 → width ≠ 8 →
      (s.pending = .read width (BitVec.ofNat 32 (0x00020000 + i)) :: rest →
        step s = .refused .bufferAccess) ∧
      (∀ v, s.pending = .write width (BitVec.ofNat 32 (0x00020000 + i)) v :: rest →
        step s = .refused .bufferAccess)) ∧
    (∀ (i width : Nat), 65543 ≤ i → i < 0x20000 →
      (s.pending = .read width (BitVec.ofNat 32 (0x00020000 + i)) :: rest →
        ∃ r, step s = .refused r ∧ (width = 8 → r = .unmapped)) ∧
      (∀ v, s.pending = .write width (BitVec.ofNat 32 (0x00020000 + i)) v :: rest →
        ∃ r, step s = .refused r ∧ (width = 8 → r = .unmapped)))

/-- R45, R50, R131: a host access that is neither a write of CMD nor a reset changes no result of a command. -/
def Obligations.HostAccessesKeepTheResults : Prop :=
  ∀ (s t : State) (a : HostAction) (rest : List HostAction), s.pending = a :: rest → a ≠ .reset →
    (∀ width w, a ≠ .write width 0x00000000#32 w) → step s = .next t →
    t.cmd = s.cmd ∧ t.status = s.status ∧ t.error = s.error ∧ t.frame = s.frame ∧
    t.record = s.record ∧ t.field = s.field ∧ t.outBuf = s.outBuf ∧ t.pending = rest

/-! ## NOP, CLEAR, CRC16 and XOR -/

/-- R105: NOP sets DONE and changes nothing else; its word is 0x00000000, and 0x00000100 is illegal. -/
def Obligations.NopOnlySetsDone : Prop :=
  (∀ s : State, exec .nop s = .next { s with status := s.status ||| 0x00000001#32 }) ∧
  decode 0x00000000#32 = .ok .nop ∧ ∃ e, decode 0x00000100#32 = .error e

/-- R106: CLEAR zeroes every core-written register but DONE and empties OUT_BUF; CMD, IN_LEN and IN_BUF are kept. -/
def Obligations.ClearZeroesEveryResult : Prop :=
  (∀ s : State, exec .clear s = .next (s.clearedWith 0x00000001#32)) ∧
  decode 0x00000007#32 = .ok .clear

/-- R70: CRC16 writes the CRC of the input to CRC_CALC, 0xFFFF for an empty input, clears every other result, and is
refused when a byte of the input is unwritten. -/
def Obligations.Crc16CommandWritesTheCrc : Prop :=
  (∀ (s : State) (bs : List Byte), s.inputIs bs →
    exec .crc16 s = .next { s.clearedWith 0x00000001#32 with
      frame := { crcCalc := (crc16 bs).setWidth 32 } }) ∧
  (∀ s : State, s.inLen = 0#32 →
    exec .crc16 s = .next { s.clearedWith 0x00000001#32 with frame := { crcCalc := 0x0000FFFF#32 } }) ∧
  (∀ (s : State) (j : Nat), j < s.inLen.toNat → s.inBuf.read j = none →
    exec .crc16 s = .refused .unwrittenInput) ∧
  decode 0x00000001#32 = .ok .crc16

/-- R69: the check value. -/
def Obligations.CrcCheckValue : Prop :=
  crc16 [0x31#8, 0x32#8, 0x33#8, 0x34#8, 0x35#8, 0x36#8, 0x37#8, 0x38#8, 0x39#8] = 0x4B37#16

/-- R66 and the inference of R67: the least-significant-bit-first form gives the same result on every sequence. -/
def Obligations.LsbFirstCrcIsTheCrc : Prop :=
  ∀ s : List Byte, crc16Lsb s = crc16 s

/-- R66 and the inference of R68: the form through the 256-entry table gives the same result on every sequence. -/
def Obligations.TableCrcIsTheCrc : Prop :=
  ∀ s : List Byte, crc16Table s = crc16 s

/-- R76: XOR masks the input into OUT_BUF with OUT_LEN = `L`, FRAME_VALID stays 0, every other result is cleared,
and it is refused when a byte of the input is unwritten. -/
def Obligations.XorCommandMasksTheInput : Prop :=
  (∀ (s : State) (bs : List Byte), s.inputIs bs →
    exec .xor s = .next { s.clearedWith 0x00000001#32 with outBuf := mask bs }) ∧
  (∀ (s : State) (bs : List Byte), s.inputIs bs → ∃ t, exec .xor s = .next t ∧ t.readReg .outLen = s.inLen) ∧
  (∀ (s : State) (j : Nat), j < s.inLen.toNat → s.inBuf.read j = none →
    exec .xor s = .refused .unwrittenInput) ∧
  decode 0x00000002#32 = .ok .xor

/-- R73 with the key of R72: the mask keeps the length and XORs byte `i` with KEY[i mod 7]. -/
def Obligations.MaskXorsByPosition : Prop :=
  ∀ s : List Byte, (mask s).length = s.length ∧
    ∀ (i : Nat) (b : Byte), s[i]? = some b →
      (mask s)[i]? = some (b ^^^
        [0x47#8, 0x72#8, 0x6F#8, 0x77#8, 0x61#8, 0x74#8, 0x74#8].getD (i % 7) 0x00#8)

/-- R74's inference: the mask is its own inverse. -/
def Obligations.MaskTwiceIsIdentity : Prop :=
  ∀ s : List Byte, mask (mask s) = s

/-! ## FRAME -/

/-- R79, for FRAME and DECODE: Truncated(10, L) before any byte is read; then, from the header alone,
Truncated(dl + 8, L) and LengthMismatch(dl + 8, L), `dl + 8` not wrapping. -/
def Obligations.FrameLengthChecks : Prop :=
  ∀ i ∈ [Instr.frame, Instr.decode], ∀ s : State,
    (s.inLen.toNat < 10 →
      exec i s = .next (s.frameFailed 0x00000105#32 10#32 s.inLen)) ∧
    (∀ i0 i1 p0 p1 d0 d1 unit kind : Byte, 10 ≤ s.inLen.toNat →
      (∀ j, j < 8 → s.inBuf.read j = [i0, i1, p0, p1, d0, d1, unit, kind][j]?) →
      (s.inLen.toNat < d0.toNat * 256 + d1.toNat + 8 →
        exec i s = .next
          (s.frameFailed 0x00000105#32 (BitVec.ofNat 32 (d0.toNat * 256 + d1.toNat + 8)) s.inLen)) ∧
      (d0.toNat * 256 + d1.toNat + 8 < s.inLen.toNat →
        exec i s = .next
          (s.frameFailed 0x00000405#32 (BitVec.ofNat 32 (d0.toNat * 256 + d1.toNat + 8)) s.inLen)))

/-- R80, for FRAME and DECODE: when the lengths agree and the received checksum is not the CRC of the bytes before
it, still obfuscated, the command ends with ChecksumMismatch(received, computed) and no part of the frame. -/
def Obligations.FrameChecksumMismatch : Prop :=
  ∀ i ∈ [Instr.frame, Instr.decode], ∀ (s : State) (i0 i1 p0 p1 d0 d1 unit kind c0 c1 : Byte) (pl : List Byte),
    s.inputIs (wireBody i0 i1 p0 p1 d0 d1 unit kind pl ++ [c0, c1]) →
    pl.length + 2 = d0.toNat * 256 + d1.toNat →
    crc16 (wireBody i0 i1 p0 p1 d0 d1 unit kind pl) ≠ c0 ++ c1 →
    exec i s = .next (s.frameFailed 0x00000205#32 ((c0 ++ c1 : BitVec 16).setWidth 32)
      ((crc16 (wireBody i0 i1 p0 p1 d0 d1 unit kind pl)).setWidth 32))

/-- R81, R82: when the lengths agree and the checksum matches, FRAME writes the header fields, both checksums, the
kind class and the unmasked payload, and sets FRAME_VALID; an error writes none of them. -/
def Obligations.FrameCommitsTheDecodedFrame : Prop :=
  (∀ (s : State) (i0 i1 p0 p1 d0 d1 unit kind c0 c1 : Byte) (pl : List Byte),
    s.inputIs (wireBody i0 i1 p0 p1 d0 d1 unit kind pl ++ [c0, c1]) →
    pl.length + 2 = d0.toNat * 256 + d1.toNat →
    crc16 (wireBody i0 i1 p0 p1 d0 d1 unit kind pl) = c0 ++ c1 →
    exec .frame s = .next { s.clearedWith 0x00000009#32 with
      frame := frameGroupOf i0 i1 p0 p1 d0 d1 unit kind c0 c1
      outBuf := mask pl }) ∧
  (∀ s t : State, exec .frame s = .next t → flag frameValidBit t.status = false →
    t.frame = {} ∧ t.outBuf = [])

/-- R59, R78: the class of every kind byte. -/
def Obligations.KindClassTable : Prop :=
  ∀ kind : Byte, kindClassOf kind =
    if kind = 0x03#8 then 1 else if kind = 0x04#8 then 2 else if kind = 0x16#8 then 3
    else if kind = 0x18#8 then 4 else if kind = 0x19#8 then 5 else if kind = 0x20#8 then 6
    else if kind = 0x50#8 then 7 else 0

/-- R118 F7: CRC16 and XOR are refused when any input byte is unwritten; FRAME and DECODE, with `L >= 10`, when a
header byte is, and once the lengths agree when any input byte is. -/
def Obligations.UnwrittenInputIsRefused : Prop :=
  (∀ i ∈ [Instr.crc16, Instr.xor], ∀ (s : State) (j : Nat), j < s.inLen.toNat → s.inBuf.read j = none →
    exec i s = .refused .unwrittenInput) ∧
  (∀ i ∈ [Instr.frame, Instr.decode], ∀ (s : State) (j : Nat), 10 ≤ s.inLen.toNat → j < 8 →
    s.inBuf.read j = none → exec i s = .refused .unwrittenInput) ∧
  (∀ i ∈ [Instr.frame, Instr.decode], ∀ (s : State) (j : Nat) (d0 d1 : Byte), 10 ≤ s.inLen.toNat →
    s.inBuf.read 4 = some d0 → s.inBuf.read 5 = some d1 →
    s.inLen.toNat = d0.toNat * 256 + d1.toNat + 8 → j < s.inLen.toNat →
    s.inBuf.read j = none → exec i s = .refused .unwrittenInput)

/-- R71's inference: the CRC16 command over the frame without its last two bytes gives the CRC_CALC of a successful
FRAME. -/
def Obligations.Crc16OfBodyIsTheFrameCrc : Prop :=
  ∀ s t : State, exec .frame s = .next t → flag frameValidBit t.status = true →
    ∃ u, exec .crc16 { s with inLen := s.inLen - 2#32 } = .next u ∧ u.frame.crcCalc = t.frame.crcCalc

/-- The frame round trip of 95_test_vectors.md S4 and S5 for every payload: the frame built of any header bytes, the
masked payload and its checksum decodes to those header bytes and that payload. -/
def Obligations.BuiltFrameDecodesToItsPayload : Prop :=
  ∀ (s : State) (i0 i1 p0 p1 d0 d1 unit kind c0 c1 : Byte) (p : List Byte),
    p.length ≤ 65533 → (d0 ++ d1 : BitVec 16) = BitVec.ofNat 16 (p.length + 2) →
    (c0 ++ c1 : BitVec 16) = crc16 (wireBody i0 i1 p0 p1 d0 d1 unit kind (mask p)) →
    s.inputIs (wireBody i0 i1 p0 p1 d0 d1 unit kind (mask p) ++ [c0, c1]) →
    exec .frame s = .next { s.clearedWith 0x00000009#32 with
      frame := frameGroupOf i0 i1 p0 p1 d0 d1 unit kind c0 c1
      outBuf := p }

/-- After R80, R84: a frame that decodes is rejected when any one of its bytes, header, payload or checksum, is
changed. -/
def Obligations.OneChangedByteIsDetected : Prop :=
  ∀ i ∈ [Instr.frame, Instr.decode], ∀ (s s' t : State) (bs : List Byte) (k : Nat) (b : Byte),
    s.inputIs bs → exec i s = .next t → flag frameValidBit t.status = true →
    k < bs.length → bs[k]? ≠ some b → s'.inputIs (bs.set k b) →
    ∃ t', exec i s' = .next t' ∧ flag frameValidBit t'.status = false ∧ flag errBit t'.status = true

/-- R132: on a written input whose last two bytes are not the CRC of the bytes before them, FRAME and DECODE end,
by the first failing check of R79 and R80, with one of Truncated, LengthMismatch and ChecksumMismatch, every other
result cleared. So no payload byte stands in OUT_BUF or in the FRAME, RECORD or FIELD group, and ERR_A and ERR_B hold
lengths or checksums only. -/
def Obligations.NoPayloadBeforeTheChecksum : Prop :=
  ∀ i ∈ [Instr.frame, Instr.decode], ∀ (s : State) (bs : List Byte), s.inputIs bs →
    crc16 (bs.take (bs.length - 2)) ≠ BitVec.ofNat 16 (beValue (bs.drop (bs.length - 2))) →
    ∃ t, exec i s = .next t ∧
      t.outBuf = [] ∧ t.frame = {} ∧ t.record = {} ∧ t.field = {} ∧
      flag frameValidBit t.status = false ∧ flag recValidBit t.status = false ∧
      flag fieldValidBit t.status = false ∧ errCode t.status ∈ [0x01#8, 0x02#8, 0x04#8] ∧
      t = if bs.length < 10 then s.frameFailed 0x00000105#32 10#32 s.inLen
        else if bs.length < beValue ((bs.drop 4).take 2) + 8 then
          s.frameFailed 0x00000105#32 (BitVec.ofNat 32 (beValue ((bs.drop 4).take 2) + 8)) s.inLen
        else if beValue ((bs.drop 4).take 2) + 8 < bs.length then
          s.frameFailed 0x00000405#32 (BitVec.ofNat 32 (beValue ((bs.drop 4).take 2) + 8)) s.inLen
        else s.frameFailed 0x00000205#32 (BitVec.ofNat 32 (beValue (bs.drop (bs.length - 2))))
          ((crc16 (bs.take (bs.length - 2))).setWidth 32)

/-! ## RECORD -/

/-- R86: without a decoded `Data` frame RECORD ends with NotData(FRAME_VALID, HDR_KIND) and reads no payload byte;
in a reachable state the kind is 0 when no frame is decoded. -/
def Obligations.RecordNeedsADataFrame : Prop :=
  (∀ s : State, flag frameValidBit s.status = false ∨ s.frame.hdrKind ≠ 0x04#32 →
    exec .record s = .next (s.recordFailed 0x00000505#32
      (if flag frameValidBit s.status then 1#32 else 0#32) s.frame.hdrKind)) ∧
  (∀ s : State, s.Inv → flag frameValidBit s.status = false → s.frame.hdrKind = 0#32)

/-- R87: a `Data` payload shorter than 409 bytes ends RECORD with Truncated(409, P). -/
def Obligations.RecordNeeds409Bytes : Prop :=
  ∀ s : State, flag frameValidBit s.status = true → s.frame.hdrKind = 0x04#32 → s.outBuf.length < 409 →
    exec .record s = .next (s.recordFailed 0x00000105#32 409#32 (BitVec.ofNat 32 s.outBuf.length))

/-- R90: six date and time bytes that are no valid calendar date and time end RECORD with InvalidTimestamp, and
valid ones end it with no error. -/
def Obligations.RecordRejectsInvalidTimestamps : Prop :=
  ∀ (s : State) (y mo d h mi sec : Byte), flag frameValidBit s.status = true →
    s.frame.hdrKind = 0x04#32 → 409 ≤ s.outBuf.length → s.timeBytes y mo d h mi sec →
    (¬ validDateTime y mo d h mi sec →
      exec .record s = .next (s.recordFailed 0x00000305#32
        (BitVec.ofNat 32 (y.toNat * 65536 + mo.toNat * 256 + d.toNat))
        (BitVec.ofNat 32 (h.toNat * 65536 + mi.toNat * 256 + sec.toNat)))) ∧
    (validDateTime y mo d h mi sec →
      ∃ t, exec .record s = .next t ∧ flag errBit t.status = false ∧ flag recValidBit t.status = true)

/-- R94, R95: with a valid timestamp RECORD writes its seconds, its date and time and EXTRA_LEN, and sets REC_VALID;
OUT_BUF, extra bytes included, is kept; on failure none of these registers is written and the frame is kept. -/
def Obligations.RecordCommitsTheTimestamp : Prop :=
  (∀ (s : State) (y mo d h mi sec : Byte), flag frameValidBit s.status = true →
    s.frame.hdrKind = 0x04#32 → 409 ≤ s.outBuf.length → s.timeBytes y mo d h mi sec →
    validDateTime y mo d h mi sec →
    exec .record s = .next { s with
      status := (s.status &&& 0xFFFF00CA#32) ||| 0x00000011#32
      error := {}
      record := recordGroupOf s.outBuf.length y mo d h mi sec
      field := {} }) ∧
  (∀ s t : State, exec .record s = .next t → flag recValidBit t.status = false →
    t.record = {} ∧ t.frame = s.frame ∧ t.outBuf = s.outBuf ∧
    flag frameValidBit t.status = flag frameValidBit s.status)

/-- R91: the day count of the formula is the number of days counted year by year and month by month from 1970. -/
def Obligations.UnixDaysCountTheDays : Prop :=
  ∀ y mo d : Nat, y < 256 → 1 ≤ mo → mo ≤ 12 → 1 ≤ d →
    unixDays (2000 + y) mo d = daysToYear (30 + y) + daysToMonth (2000 + y) (mo - 1) + (d - 1)

/-! ## FIELD -/

/-- R98, R99 over the numeric rows of R60 with exponent 0, 1 and 2: each field, by its own command and by FIELD with its
selector, reports its big-endian raw value, its exponent and its exact integer and fractional parts. -/
def Obligations.NumericFieldsAreReported : Prop :=
  ∀ p ∈ [(numericRows0, 0), (numericRows1, 1), (numericRows2, 2)], ∀ r ∈ p.1,
    ∀ i ∈ [r.cmd, Instr.field r.sel], ∀ s : State, flag recValidBit s.status = true → 409 ≤ s.outBuf.length →
    exec i s = .next (s.fieldEnd 0x00000021#32 {}
      (numberGroupOf r p.2 (beValue ((s.outBuf.drop r.off).take r.width))))

/-- R101: each byte range, EXTRA included, reports its offset and width, F_KIND = 1 and no number; in a reachable
state its bytes lie inside OUT_LEN. -/
def Obligations.ByteRangesReportTheirPlace : Prop :=
  (∀ r ∈ byteRows, ∀ i ∈ [r.cmd, Instr.field r.sel], ∀ s : State, flag recValidBit s.status = true →
    exec i s = .next (s.fieldEnd 0x00000021#32 {}
      { fSel := r.sel.setWidth 32, fOff := BitVec.ofNat 32 r.off,
        fWidth := BitVec.ofNat 32 r.width, fKind := 1#32 }) ∧
    (s.Inv → r.off + r.width ≤ s.outBuf.length)) ∧
  (∀ i ∈ [Instr.fieldExtra, Instr.field 0x28#8], ∀ s : State, flag recValidBit s.status = true →
    exec i s = .next (s.fieldEnd 0x00000021#32 {}
      { fSel := 0x28#32, fOff := 409#32, fWidth := s.record.extraLen, fKind := 1#32 }) ∧
    (s.Inv → 409 + s.record.extraLen.toNat = s.outBuf.length))

/-- R103, R112: BadSelector for a selector 0x29 to 0xFF comes first, with or without a record. -/
def Obligations.UndefinedSelectorsAreRejected : Prop :=
  ∀ (sel : Byte) (s : State), 0x29 ≤ sel.toNat →
    exec (.field sel) s = .next (s.fieldEnd 0x00000705#32 { errA := sel.setWidth 32, errB := 0#32 } {})

/-- R103: a defined selector without a decoded record ends with NoRecord(0, 0). -/
def Obligations.FieldNeedsARecord : Prop :=
  ∀ r ∈ allFieldRows, ∀ i ∈ [r.cmd, Instr.field r.sel], ∀ s : State, flag recValidBit s.status = false →
    exec i s = .next (s.fieldEnd 0x00000605#32 {} {})

/-- R99: each of the 30 numeric rows, by its own command and by FIELD with its selector, completes with its exponent
and with integer and fractional parts exact for the number in the payload; and whenever any FIELD command, named or
not, ends with a number, from whatever state, its parts are exact for its exponent. -/
def Obligations.ScalingIsExact : Prop :=
  (∀ p ∈ [(numericRows0, 0), (numericRows1, 1), (numericRows2, 2)], ∀ r ∈ p.1,
    ∀ i ∈ [r.cmd, Instr.field r.sel], ∀ s : State, flag recValidBit s.status = true → 409 ≤ s.outBuf.length →
    ∃ t, exec i s = .next t ∧ flag fieldValidBit t.status = true ∧ t.field.fKind = 0#32 ∧
      t.field.fExp.toNat = p.2 ∧
      t.field.fRaw.toNat = beValue ((s.outBuf.drop r.off).take r.width) ∧
      t.field.fRaw.toNat = t.field.fInt.toNat * 10 ^ p.2 + t.field.fFrac.toNat ∧
      t.field.fFrac.toNat < 10 ^ p.2) ∧
  (∀ (i : Instr) (s t : State), ((∃ sel, i = .field sel) ∨ ∃ r ∈ allFieldRows, i = r.cmd) →
    exec i s = .next t → flag fieldValidBit t.status = true → t.field.fKind = 0#32 →
    t.field.fRaw.toNat = t.field.fInt.toNat * 10 ^ t.field.fExp.toNat + t.field.fFrac.toNat ∧
    t.field.fFrac.toNat < 10 ^ t.field.fExp.toNat ∧ t.field.fExp.toNat ≤ 2)

/-- R60: every byte of [0, 409) lies in the field of exactly one selector, the rows are those of the table, and the
bytes from 409 on are field 0x28. -/
def Obligations.LayoutPartitionsTheRecord : Prop :=
  (∀ a, a < 409 → ∃ sel row, layout 0 sel = some row ∧ row.off ≤ a ∧ a < row.off + row.width ∧
    ∀ sel' row', layout 0 sel' = some row' → row'.off ≤ a → a < row'.off + row'.width → sel' = sel) ∧
  (∀ r ∈ allFieldRows, ∃ row, layout 0 r.sel = some row ∧ row.off = r.off ∧ row.width = r.width ∧
    (r ∈ numericRows0 → row.k = 0) ∧ (r ∈ numericRows1 → row.k = 1) ∧ (r ∈ numericRows2 → row.k = 2) ∧
    (row.type = .bytes ↔ r ∈ byteRows ∨ r.sel = 0x28#8) ∧ (row.type = .u8 → r.width = 1) ∧
    (row.type = .u16 → r.width = 2) ∧ (row.type = .u32 → r.width = 4)) ∧
  (∀ e, ∃ row, layout e 0x28#8 = some row ∧ row.off = 409 ∧ row.width = e ∧ row.type = .bytes)

/-! ## DECODE -/

/-- R107: DECODE is FRAME, followed by RECORD when FRAME decoded a `Data` frame; its word is 0x00000006, and
NotData cannot occur. -/
def Obligations.DecodeIsFrameThenRecord : Prop :=
  (∀ s t : State, exec .frame s = .next t →
    exec .decode s =
      if flag frameValidBit t.status = true ∧ t.frame.hdrKind = 0x04#32 then exec .record t else .next t) ∧
  (∀ (s : State) (r : Refusal), exec .frame s = .refused r → exec .decode s = .refused r) ∧
  (∀ s t : State, exec .decode s = .next t → errCode t.status ≠ 0x05#8) ∧
  decode 0x00000006#32 = .ok .decode

/-- After R107: on a good frame of any kind other than `Data`, DECODE commits the frame, with no record and no
error. -/
def Obligations.DecodeOfOtherKindsCommitsTheFrame : Prop :=
  ∀ (s : State) (i0 i1 p0 p1 d0 d1 unit kind c0 c1 : Byte) (pl : List Byte), kind ≠ 0x04#8 →
    s.inputIs (wireBody i0 i1 p0 p1 d0 d1 unit kind pl ++ [c0, c1]) →
    pl.length + 2 = d0.toNat * 256 + d1.toNat →
    crc16 (wireBody i0 i1 p0 p1 d0 d1 unit kind pl) = c0 ++ c1 →
    exec .decode s = .next { s.clearedWith 0x00000009#32 with
      frame := frameGroupOf i0 i1 p0 p1 d0 d1 unit kind c0 c1
      outBuf := mask pl }

/-- After R107: on a good `Data` frame with at least 409 payload bytes and a valid timestamp, DECODE commits the
frame and the record. -/
def Obligations.DecodeOfDataCommitsTheRecord : Prop :=
  ∀ (s : State) (i0 i1 p0 p1 d0 d1 unit c0 c1 y mo d h mi sec : Byte) (pl : List Byte),
    s.inputIs (wireBody i0 i1 p0 p1 d0 d1 unit 0x04#8 pl ++ [c0, c1]) →
    pl.length + 2 = d0.toNat * 256 + d1.toNat →
    crc16 (wireBody i0 i1 p0 p1 d0 d1 unit 0x04#8 pl) = c0 ++ c1 →
    409 ≤ pl.length → State.timeBytes { s with outBuf := mask pl } y mo d h mi sec →
    validDateTime y mo d h mi sec →
    exec .decode s = .next { s.clearedWith 0x00000019#32 with
      frame := frameGroupOf i0 i1 p0 p1 d0 d1 unit 0x04#8 c0 c1
      record := recordGroupOf pl.length y mo d h mi sec
      outBuf := mask pl }

/-! ## Errors and groups -/

/-- R110: raising an error writes ERR, ERR_CODE, ERR_A and ERR_B and nothing else. -/
def Obligations.RaiseWritesOnlyTheErrorGroup : Prop :=
  ∀ (s : State) (e : CmdError), s.raise e = { s with
    status := (s.status &&& 0xFFFF00FB#32) ||| (e.code.setWidth 32 * 256#32) ||| 0x00000004#32
    error := { errA := e.detailA, errB := e.detailB } }

/-- R111: the code and the two detail values of every error. -/
def Obligations.ErrorCodesAndDetails : Prop :=
  (∀ n a : Nat, (CmdError.truncated n a).code = 1#8 ∧
    (CmdError.truncated n a).detailA = BitVec.ofNat 32 n ∧
    (CmdError.truncated n a).detailB = BitVec.ofNat 32 a) ∧
  (∀ x c : Crc, (CmdError.checksumMismatch x c).code = 2#8 ∧
    (CmdError.checksumMismatch x c).detailA.toNat = x.toNat ∧
    (CmdError.checksumMismatch x c).detailB.toNat = c.toNat) ∧
  (∀ y mo d h mi s : Byte, (CmdError.invalidTimestamp y mo d h mi s).code = 3#8 ∧
    (CmdError.invalidTimestamp y mo d h mi s).detailA.toNat =
      y.toNat * 65536 + mo.toNat * 256 + d.toNat ∧
    (CmdError.invalidTimestamp y mo d h mi s).detailB.toNat =
      h.toNat * 65536 + mi.toNat * 256 + s.toNat) ∧
  (∀ n a : Nat, (CmdError.lengthMismatch n a).code = 4#8 ∧
    (CmdError.lengthMismatch n a).detailA = BitVec.ofNat 32 n ∧
    (CmdError.lengthMismatch n a).detailB = BitVec.ofNat 32 a) ∧
  (∀ (fv : Bool) (k : Word), (CmdError.notData fv k).code = 5#8 ∧
    (CmdError.notData fv k).detailA = (if fv then 1#32 else 0#32) ∧
    (CmdError.notData fv k).detailB = k) ∧
  (CmdError.noRecord.code = 6#8 ∧ CmdError.noRecord.detailA = 0#32 ∧ CmdError.noRecord.detailB = 0#32) ∧
  (∀ sel : Byte, (CmdError.badSelector sel).code = 7#8 ∧
    (CmdError.badSelector sel).detailA.toNat = sel.toNat ∧ (CmdError.badSelector sel).detailB = 0#32) ∧
  (∀ w : Word, (CmdError.illegalCommand w).code = 8#8 ∧
    (CmdError.illegalCommand w).detailA = w ∧ (CmdError.illegalCommand w).detailB = 0#32)

/-- R27: each clear operation zeroes the members of its group and nothing else. -/
def Obligations.ClearOperationsZeroTheirGroup : Prop :=
  ∀ s : State,
    s.clearErr = { s with status := s.status &&& 0xFFFF00FB#32, error := {} } ∧
    s.clearFrame = { s with status := s.status &&& 0xFFFFFFF7#32, frame := {}, outBuf := [] } ∧
    s.clearRec = { s with status := s.status &&& 0xFFFFFFEF#32, record := {} } ∧
    s.clearField = { s with status := s.status &&& 0xFFFFFFDF#32, field := {} }

/-! ## Invariants and whole-machine rules -/

/-- The invariant holds after reset. -/
def Obligations.ResetMeetsTheInvariant : Prop := State.reset.Inv

/-- R28's inference, with the ranges of R14 to R30: every step from a state that meets the invariant, by any host
access, command or reset, answers a state that meets it. -/
def Obligations.StepKeepsTheInvariant : Prop :=
  ∀ s t : State, s.Inv → step s = .next t → t.Inv

/-- No reachable state faults (log 7): the model's one fault cannot follow from a state that meets the invariant. -/
def Obligations.InvariantExcludesFaults : Prop :=
  ∀ (s : State) (f : Fault), s.Inv → step s ≠ .fault f

/-- R17, R29, R39, R40, R104: no command word, legal or not, changes CMD, IN_LEN, any byte of IN_BUF, BUSY or a
reserved bit of STATUS, or the host's lists, and every one ends with DONE set. -/
def Obligations.CommandsKeepTheInput : Prop :=
  ∀ (w : Word) (s t : State), coreStep w s = .next t →
    t.cmd = s.cmd ∧ t.inLen = s.inLen ∧ (∀ a, t.inBuf.read a = s.inBuf.read a) ∧
    t.status &&& 0xFFFF00C2#32 = s.status &&& 0xFFFF00C2#32 ∧ flag doneBit t.status = true ∧
    t.pending = s.pending ∧ t.received = s.received

/-- R96, R103, R110: RECORD keeps the FRAME group and every byte of OUT_BUF, and FIELD, by any row, keeps the RECORD
group as well. -/
def Obligations.RecordAndFieldKeepTheFrame : Prop :=
  (∀ s t : State, exec .record s = .next t →
    t.frame = s.frame ∧ (∀ j : Nat, t.outBuf[j]? = s.outBuf[j]?) ∧
    flag frameValidBit t.status = flag frameValidBit s.status) ∧
  (∀ (i : Instr) (s t : State), ((∃ sel, i = .field sel) ∨ ∃ r ∈ allFieldRows, i = r.cmd) →
    exec i s = .next t →
    t.frame = s.frame ∧ t.record = s.record ∧ (∀ j : Nat, t.outBuf[j]? = s.outBuf[j]?) ∧
    flag frameValidBit t.status = flag frameValidBit s.status ∧
    flag recValidBit t.status = flag recValidBit s.status)

/-- R45's inference: writing the same command word twice with no other access between leaves the state that writing
it once leaves. -/
def Obligations.SameCommandTwiceIsOnce : Prop :=
  ∀ (s t : State) (w : Word) (rest : List HostAction),
    s.pending = .write 32 0x00000000#32 w :: .write 32 0x00000000#32 w :: rest →
    step s = .next t → step t = .next { t with pending := rest }

/-- R32's inference, R114: the results of CRC16, XOR, FRAME and DECODE depend on IN_LEN and IN_BUF alone, whatever
commands, errors or results came before. -/
def Obligations.InputCommandsDependOnInputOnly : Prop :=
  ∀ i ∈ [Instr.crc16, Instr.xor, Instr.frame, Instr.decode], ∀ s s' t : State,
    s'.inLen = s.inLen → (∀ a, a < s.inLen.toNat → s'.inBuf.read a = s.inBuf.read a) →
    exec i s = .next t →
    ∃ t', exec i s' = .next t' ∧ t'.error = t.error ∧ t'.frame = t.frame ∧ t'.record = t.record ∧
      t'.field = t.field ∧ t'.outBuf = t.outBuf ∧
      t'.status &&& 0x0000FF3D#32 = t.status &&& 0x0000FF3D#32
end

