-- ==== Sys2Proof/Laws/Decode.lean ====
section
/-! SUPPORT. The fields of a command word (30_encoding.md R53, R54), and the words that encode nothing (R56). -/
namespace Sys2Proof
open Sys2Proof.Machine

theorem opField_toNat (w : Word) : (opField w).toNat = w.toNat % 256 := by
  simp [opField]

theorem argField_toNat (w : Word) : (argField w).toNat = w.toNat / 256 % 256 := by
  simp [argField, Nat.shiftRight_eq_div_pow]

theorem highField_toNat (w : Word) : (highField w).toNat = w.toNat / 65536 := by
  have := w.isLt
  simp [highField, Nat.shiftRight_eq_div_pow]
  omega

/-- The word of an OP and an ARG, as a number (R54). -/
theorem commandWord_toNat (op arg : Byte) : (commandWord op arg).toNat = arg.toNat * 256 + op.toNat := by
  have h1 := op.isLt
  have h2 := arg.isLt
  have hs : arg.toNat <<< 8 % 2 ^ 32 = arg.toNat <<< 8 := by
    rw [Nat.shiftLeft_eq]; omega
  simp only [commandWord, BitVec.toNat_or, BitVec.toNat_shiftLeft, BitVec.toNat_setWidth]
  rw [Nat.mod_eq_of_lt (show arg.toNat < 2 ^ 32 by omega), Nat.mod_eq_of_lt (show op.toNat < 2 ^ 32 by omega), hs,
    ← Nat.shiftLeft_add_eq_or_of_lt h1, Nat.shiftLeft_eq]

/-- The fields of such a word are that OP and that ARG, and its reserved bits are 0 (R53, R54). -/
theorem opField_commandWord (op arg : Byte) : opField (commandWord op arg) = op := by
  apply BitVec.eq_of_toNat_eq
  have := op.isLt
  rw [opField_toNat, commandWord_toNat]
  omega

theorem argField_commandWord (op arg : Byte) : argField (commandWord op arg) = arg := by
  apply BitVec.eq_of_toNat_eq
  have := op.isLt
  have := arg.isLt
  rw [argField_toNat, commandWord_toNat]
  omega

theorem highField_commandWord (op arg : Byte) : highField (commandWord op arg) = 0#16 := by
  apply BitVec.eq_of_toNat_eq
  have := op.isLt
  have := arg.isLt
  rw [highField_toNat, commandWord_toNat]
  simp only [BitVec.toNat_ofNat]
  omega

/-- A word with its reserved bits 0 is the word of its OP and its ARG (R53, R54). -/
theorem eq_commandWord {w : Word} (h : highField w = 0#16) : w = commandWord (opField w) (argField w) := by
  apply BitVec.eq_of_toNat_eq
  have hh := congrArg BitVec.toNat h
  rw [highField_toNat] at hh
  have hh' : w.toNat / 65536 = 0 := by simpa using hh
  rw [commandWord_toNat, opField_toNat, argField_toNat]
  omega

/-- A word with a reserved bit encodes nothing, whatever its other bits (R56). -/
theorem decode_of_highField {w : Word} (h : highField w ≠ 0#16) : decode w = .error (.reservedBits (highField w)) := by
  simp only [decode, if_pos h]

/-- What a word with its reserved bits 0 encodes, by its OP (R53, R54, R56). -/
theorem decode_commandWord (op arg : Byte) : decode (commandWord op arg) =
    match op.toNat with
    | 0x00 => noArg (commandWord op arg) .nop
    | 0x01 => noArg (commandWord op arg) .crc16
    | 0x02 => noArg (commandWord op arg) .xor
    | 0x03 => noArg (commandWord op arg) .frame
    | 0x04 => noArg (commandWord op arg) .record
    | 0x05 => .ok (fieldInstr arg)
    | 0x06 => noArg (commandWord op arg) .decode
    | 0x07 => noArg (commandWord op arg) .clear
    | _ => .error (.unknownOp op) := by
  simp only [decode, highField_commandWord, opField_commandWord, argField_commandWord, ne_eq, not_true_eq_false,
    if_false] <;> rfl

/-- An OP that takes no operand, with its ARG (R53, R56). -/
theorem noArg_commandWord (op arg : Byte) (i : Instr) : noArg (commandWord op arg) i =
    if arg = 0#8 then .ok i else .error (.argNotZero op arg) := by
  simp only [noArg, opField_commandWord, argField_commandWord]

/-- The command of a selector is well formed, and its word is the FIELD word of that selector (R64). -/
theorem fieldInstr_encode (sel : Byte) : (fieldInstr sel).wellFormed = true ∧ encode (fieldInstr sel) = fieldWord sel := by
  revert sel; decide +kernel

end Sys2Proof
end

