-- ==== Sys2Proof/Laws/Flags.lean ====
section
/-! SUPPORT. STATUS as masks: every update of STATUS is `(st &&& keep) ||| set`, such updates compose to one,
and the fields are read off that form. -/
namespace Sys2Proof.Machine

theorem clearFlag_eq_mask (n : Nat) (st : Word) : clearFlag n st = st &&& ~~~(1#32 <<< n) := rfl

theorem setFlag_eq_mask (n : Nat) (st : Word) : setFlag n st = st ||| (1#32 <<< n) := rfl

/-- Clearing ERR and ERR_CODE keeps every other bit. -/
theorem statusClearErr_eq (st : Word) : statusClearErr st = st &&& 0xFFFF00FB#32 := by
  simp [statusClearErr, setErrCode, clearFlag, errBit, BitVec.and_assoc]

/-- Two mask-and-set updates in a row are one. -/
theorem mask_set_mask_set (st m v m' v' : Word) :
    (((st &&& m) ||| v) &&& m') ||| v' = (st &&& (m &&& m')) ||| ((v &&& m') ||| v') := by
  ext i
  simp only [BitVec.getElem_or, BitVec.getElem_and]
  cases st[i] <;> cases m[i] <;> cases v[i] <;> cases m'[i] <;> simp

/-- Bits that are set afterwards need not be kept. -/
theorem mask_keep_set (st m v : Word) : (st &&& (m ||| v)) ||| v = (st &&& m) ||| v := by
  ext i
  simp only [BitVec.getElem_or, BitVec.getElem_and]
  cases st[i] <;> cases m[i] <;> cases v[i] <;> simp

theorem mask_keep_part (st m v k : Word) : (st &&& (m ||| k)) ||| (v ||| k) = (st &&& m) ||| (v ||| k) := by
  ext i
  simp only [BitVec.getElem_or, BitVec.getElem_and]
  cases st[i] <;> cases m[i] <;> cases v[i] <;> cases k[i] <;> simp

/-- A flag of a masked and set word. -/
theorem flag_mask_set (n : Nat) (st m v : Word) :
    flag n ((st &&& m) ||| v) = ((flag n st && m.getLsbD n) || v.getLsbD n) := by
  simp [flag]

theorem flag_and (n : Nat) (st m : Word) : flag n (st &&& m) = (flag n st && m.getLsbD n) := by
  simp [flag]

theorem flag_or (n : Nat) (st v : Word) : flag n (st ||| v) = (flag n st || v.getLsbD n) := by
  simp [flag]

/-- ERR_CODE of a masked and set word. -/
theorem errCode_and (st m : Word) : errCode (st &&& m) = errCode st &&& errCode m := by
  ext i; simp [errCode]

theorem errCode_or (st v : Word) : errCode (st ||| v) = errCode st ||| errCode v := by
  ext i; simp [errCode]

/-- Raising sets ERR and ERR_CODE. -/
theorem statusRaise_eq (c : Byte) (st : Word) :
    statusRaise c st = (st &&& 0xFFFF00FB#32) ||| ((c.setWidth 32 <<< 8) ||| 0x00000004#32) := by
  have h : (1#32 <<< errBit) = 0x00000004#32 := by decide
  have hv : (4#32 &&& ~~~0x0000FF00#32 : Word) = 4#32 := by decide
  have hm : (~~~0x0000FF00#32 : Word) = 0xFFFF00FB#32 ||| 4#32 := by decide
  unfold statusRaise setErrCode setFlag
  rw [h]
  ext i
  simp only [BitVec.getElem_or, BitVec.getElem_and, hm]
  cases st[i] <;> cases (4#32 : Word)[i] <;> cases (0xFFFF00FB#32 : Word)[i] <;> simp

/-- The ERR_CODE and ERR that raising leaves. -/
theorem errCode_statusRaise (c : Byte) (st : Word) : errCode (statusRaise c st) = c := by
  ext i hi
  have h8 : 8 + i < 32 := by omega
  have hm : (4294902015#32 : Word)[8 + i] = false := by
    rw [← BitVec.getLsbD_eq_getElem]
    clear h8; interval_cases i <;> rfl
  simp [statusRaise, setErrCode, errCode, hm, h8, BitVec.getLsbD_eq_getElem hi]

theorem flag_statusRaise (n : Nat) (hn : n < 8) (c : Byte) (st : Word) :
    flag n (statusRaise c st) = (flag n st || decide (n = errBit)) := by
  unfold statusRaise setErrCode setFlag flag
  interval_cases n <;> simp [errBit]

end Sys2Proof.Machine
end

