-- ==== Sys2Proof/Laws/Memory.lean ====
section
/-! SUPPORT. The laws of IN_BUF: read after write, the canonical form, and reading a range of bytes. -/
namespace Sys2Proof.Machine

/-- A read after a write: the byte written at its index, every other index as before. -/
theorem Memory.read_write (m : Memory) (a b : Nat) (v : Byte) :
    (Memory.write m a v).read b = if b = a then some v else m.read b := by
  induction m with
  | nil => simp [Memory.write, Memory.read]
  | cons c m ih =>
    obtain ⟨k, x⟩ := c
    simp only [Memory.write]
    split_ifs with h1 h2 h3 h4 <;> simp_all [Memory.read]

theorem Memory.read_write_self (m : Memory) (a : Nat) (v : Byte) :
    (Memory.write m a v).read a = some v := by simp [Memory.read_write]

theorem Memory.read_write_other (m : Memory) {a b : Nat} (v : Byte) (h : b ≠ a) :
    (Memory.write m a v).read b = m.read b := by simp [Memory.read_write, h]

/-- The indices of a written memory are those of the memory and the written one. -/
theorem Memory.mem_write {m : Memory} {a : Nat} {v : Byte} {c : Host.Cell}
    (h : c ∈ Memory.write m a v) : c = (a, v) ∨ c ∈ m := by
  induction m with
  | nil => simpa [Memory.write] using h
  | cons d m ih =>
    simp only [Memory.write] at h
    split_ifs at h with h1 h2
    · simpa using h
    · rcases List.mem_cons.1 h with h | h
      · exact .inl h
      · exact .inr (List.mem_cons_of_mem _ h)
    · rcases List.mem_cons.1 h with h | h
      · exact .inr (by simp [h])
      · rcases ih h with h | h
        · exact .inl h
        · exact .inr (List.mem_cons_of_mem _ h)

/-- Writing keeps the canonical form. -/
theorem Memory.write_wf {m : Memory} (h : m.wf) (a : Nat) (v : Byte) : (Memory.write m a v).wf := by
  induction m with
  | nil => simp [Memory.write, Memory.wf]
  | cons d m ih =>
    obtain ⟨hd, hm⟩ := List.pairwise_cons.1 h
    simp only [Memory.write]
    split_ifs with h1 h2
    · refine List.pairwise_cons.2 ⟨fun c hc => ?_, h⟩
      rcases List.mem_cons.1 hc with rfl | hc
      · exact h1
      · exact lt_trans h1 (hd c hc)
    · exact List.pairwise_cons.2 ⟨fun c hc => by simpa [h2] using hd c hc, hm⟩
    · refine List.pairwise_cons.2 ⟨fun c hc => ?_, ih hm⟩
      rcases Memory.mem_write hc with rfl | hc
      · show d.1 < a
        omega
      · exact hd c hc

/-- IN_BUF is in canonical form after reset (R33). -/
theorem reset_inBuf_wf : State.reset.inBuf.wf := List.Pairwise.nil

/-- Writing below a bound keeps the indices below it. -/
theorem Memory.write_range {m : Memory} {cap a : Nat} {v : Byte} (h : ∀ c ∈ m, c.1 < cap) (ha : a < cap) :
    ∀ c ∈ Memory.write m a v, c.1 < cap := by
  intro c hc
  rcases Memory.mem_write hc with rfl | hc
  · exact ha
  · exact h c hc

/-- A range of bytes is read exactly when each of them is. -/
theorem Memory.bytes_eq_some {m : Memory} {i n : Nat} {bs : List Byte} :
    m.bytes i n = some bs ↔ bs.length = n ∧ ∀ j, j < n → m.read (i + j) = bs[j]? := by
  induction n generalizing i bs with
  | zero => cases bs <;> simp [Memory.bytes]
  | succ n ih =>
    constructor
    · intro h
      simp only [Memory.bytes] at h
      split at h
      · rename_i b rest hb hr
        obtain rfl : b :: rest = bs := by simpa using h
        obtain ⟨hl, hj⟩ := ih.1 hr
        refine ⟨by simp [hl], fun j hjn => ?_⟩
        cases j with
        | zero => simpa using hb
        | succ j =>
          have := hj j (by omega)
          simpa [Nat.add_assoc, Nat.add_comm 1 j] using this
      · cases h
    · rintro ⟨hl, hj⟩
      cases bs with
      | nil => simp at hl
      | cons b rest =>
        have hb : m.read i = some b := by simpa using hj 0 (by omega)
        have hr : Memory.bytes m (i + 1) n = some rest := ih.2 ⟨by simpa using hl, fun j hjn => by
          have := hj (j + 1) (by omega)
          simpa [Nat.add_assoc, Nat.add_comm 1 j] using this⟩
        simp [Memory.bytes, hb, hr]

/-- A range with an unwritten byte is not read. -/
theorem Memory.bytes_eq_none {m : Memory} {i n j : Nat} (hj : j < n) (h : m.read (i + j) = none) :
    m.bytes i n = none := by
  cases hb : m.bytes i n with
  | none => rfl
  | some bs =>
    obtain ⟨hl, hr⟩ := Memory.bytes_eq_some.1 hb
    have := hr j hj
    rw [h, List.getElem?_eq_getElem (by omega)] at this
    simp at this

/-- The bytes of a range depend on the reads inside it alone. -/
theorem Memory.bytes_congr {m m' : Memory} {i n : Nat} (h : ∀ j, j < n → m'.read (i + j) = m.read (i + j)) :
    m'.bytes i n = m.bytes i n := by
  induction n generalizing i with
  | zero => rfl
  | succ n ih =>
    have h0 := h 0 (by omega)
    have hr : Memory.bytes m' (i + 1) n = Memory.bytes m (i + 1) n := ih fun j hj => by
      have := h (j + 1) (by omega)
      simpa [Nat.add_assoc, Nat.add_comm 1 j] using this
    simp only [Nat.add_zero] at h0
    simp only [Memory.bytes, h0, hr]

/-- The range of a shorter length is the front of the longer one. -/
theorem Memory.bytes_take {m : Memory} {i n k : Nat} {bs : List Byte} (h : m.bytes i n = some bs) (hk : k ≤ n) :
    m.bytes i k = some (bs.take k) := by
  obtain ⟨hl, hr⟩ := Memory.bytes_eq_some.1 h
  refine Memory.bytes_eq_some.2 ⟨by simp; omega, fun j hj => ?_⟩
  rw [hr j (by omega), List.getElem?_take]
  simp [hj]

end Sys2Proof.Machine
end

