-- ==== Sys2Proof/Laws/Operands.lean ====
section
/-! SUPPORT. Big-endian numbers, slices, the mask and the pieces of the layout. -/
namespace Sys2Proof.Machine

theorem slice_length (l : List Byte) (i n : Nat) : (slice l i n).length = min n (l.length - i) := by
  simp [slice]

/-- One more byte at the low end: `(v << 8) | b` is `v * 256 + b` (R10). -/
theorem be_concat (l : List Byte) (b : Byte) : be (l ++ [b]) = be l * 256 + b.toNat := by
  have hb : b.toNat < 2 ^ 8 := b.isLt
  simp only [be, List.foldl_append, List.foldl_cons, List.foldl_nil]
  rw [← Nat.shiftLeft_add_eq_or_of_lt hb, Nat.shiftLeft_eq]

theorem beValue_concat (l : List Byte) (b : Byte) : beValue (l ++ [b]) = beValue l * 256 + b.toNat := by
  induction l with
  | nil => simp [beValue]
  | cons c l ih =>
    simp only [List.cons_append, beValue, ih, List.length_append, List.length_cons, List.length_nil]
    ring

/-- The shift-and-or reading of R10 is the positional value. -/
theorem be_eq_beValue (l : List Byte) : be l = beValue l := by
  induction l using List.reverseRecOn with
  | nil => rfl
  | append_singleton l b ih => rw [be_concat, beValue_concat, ih]

/-- A number of `n` bytes is below `256 ^ n`. -/
theorem be_lt (l : List Byte) : be l < 256 ^ l.length := by
  induction l using List.reverseRecOn with
  | nil => simp [be]
  | append_singleton l b ih =>
    have hb : b.toNat < 256 := b.isLt
    rw [be_concat, List.length_append, List.length_singleton, pow_succ]
    omega

theorem be_pair (hi lo : Byte) : be [hi, lo] = hi.toNat * 256 + lo.toNat := by
  have := be_concat [hi] lo
  simpa [be] using this

theorem be_pair_lt (hi lo : Byte) : be [hi, lo] < 65536 := by
  simpa using be_lt [hi, lo]

/-- Two bytes as one 16-bit value, first byte high (R10). -/
theorem append_toNat (hi lo : Byte) : (hi ++ lo : BitVec 16).toNat = hi.toNat * 256 + lo.toNat := by
  have hb : lo.toNat < 2 ^ 8 := lo.isLt
  rw [BitVec.toNat_append, ← Nat.shiftLeft_add_eq_or_of_lt hb, Nat.shiftLeft_eq]

theorem ofNat16_be_pair (hi lo : Byte) : BitVec.ofNat 16 (be [hi, lo]) = hi ++ lo := by
  apply BitVec.eq_of_toNat_eq
  rw [append_toNat, BitVec.toNat_ofNat, be_pair]
  have := hi.isLt
  have := lo.isLt
  omega

theorem ofNat32_be_pair (hi lo : Byte) : BitVec.ofNat 32 (be [hi, lo]) = (hi ++ lo : BitVec 16).setWidth 32 := by
  apply BitVec.eq_of_toNat_eq
  rw [BitVec.toNat_setWidth, append_toNat, BitVec.toNat_ofNat, be_pair]

/-- Three bytes packed are the positional number (R95, R111). -/
theorem pack3_eq (a b c : Nat) (hb : b < 256) (hc : c < 256) :
    pack3 a b c = BitVec.ofNat 32 (a * 65536 + b * 256 + c) := by
  have h1 : b <<< 8 ||| c = b * 256 + c := by
    rw [← Nat.shiftLeft_add_eq_or_of_lt (show c < 2 ^ 8 by omega), Nat.shiftLeft_eq]
  have h2 : a <<< 16 ||| (b * 256 + c) = a * 65536 + (b * 256 + c) := by
    rw [← Nat.shiftLeft_add_eq_or_of_lt (show b * 256 + c < 2 ^ 16 by omega), Nat.shiftLeft_eq]
  rw [pack3, Nat.or_assoc, h1, h2, Nat.add_assoc]

@[simp] theorem maskFrom_length (i : Nat) (l : List Byte) : (maskFrom i l).length = l.length := by
  induction l generalizing i with
  | nil => rfl
  | cons b l ih => simp [maskFrom, ih]

/-- The mask of a sequence that starts at position `i`, byte by byte (R73). -/
theorem maskFrom_getElem? (i j : Nat) (l : List Byte) :
    (maskFrom i l)[j]? = l[j]?.map (fun b => b ^^^ key (i + j)) := by
  induction l generalizing i j with
  | nil => simp [maskFrom]
  | cons b l ih =>
    cases j with
    | zero => simp [maskFrom]
    | succ j => simp [maskFrom, ih, Nat.add_assoc, Nat.add_comm 1 j]

/-- The class of a kind byte is 0 to 7 (R59). -/
theorem kindClassOf_le (k : Byte) : kindClassOf k ≤ 7 := by
  unfold kindClassOf
  split <;> omega

/-- What the layout gives: EXTRA for 0x28, a row of the fixed record below, nothing above (R64, R97). -/
theorem layout_cases (e : Nat) (sel : Byte) :
    (sel = 0x28#8 ∧ layout e sel = some (extraRow e)) ∨
    (sel.toNat < 0x28 ∧ ∃ row ∈ layoutTable, layout e sel = some row) ∨
    (0x28 < sel.toNat ∧ layout e sel = none) := by
  by_cases h : sel = 0x28#8
  · exact .inl ⟨h, by simp [layout, h]⟩
  · have hlen : layoutTable.length = 40 := by decide
    have hne : sel.toNat ≠ 0x28 := fun hs => h (BitVec.eq_of_toNat_eq (by simpa using hs))
    rcases Nat.lt_or_ge sel.toNat 0x28 with hlt | hge
    · refine .inr (.inl ⟨hlt, layoutTable[sel.toNat]'(by omega), List.getElem_mem _, ?_⟩)
      rw [layout, if_neg h, List.getElem?_eq_getElem]
    · refine .inr (.inr ⟨by omega, ?_⟩)
      rw [layout, if_neg h, List.getElem?_eq_none (by omega)]

/-- Every row of the fixed record lies inside [0, 409), a number is at most 4 bytes wide and its exponent at most 2
(R60, R62, R87). -/
theorem layoutTable_rows : ∀ row ∈ layoutTable,
    row.off + row.width ≤ 409 ∧ row.k ≤ 2 ∧ (row.type ≠ .bytes → row.width ≤ 4) := by
  decide +kernel

end Sys2Proof.Machine
end

