-- ==== Sys2Proof/Laws/State.lean ====
section
/-! SUPPORT. One lemma per field per update of State, true by rfl. -/
namespace Sys2Proof.Machine

@[simp] theorem State.clearErr_cmd (s : State) : s.clearErr.cmd = s.cmd := rfl
@[simp] theorem State.clearErr_status (s : State) : s.clearErr.status = statusClearErr s.status := rfl
@[simp] theorem State.clearErr_inLen (s : State) : s.clearErr.inLen = s.inLen := rfl
@[simp] theorem State.clearErr_error (s : State) : s.clearErr.error = {} := rfl
@[simp] theorem State.clearErr_frame (s : State) : s.clearErr.frame = s.frame := rfl
@[simp] theorem State.clearErr_record (s : State) : s.clearErr.record = s.record := rfl
@[simp] theorem State.clearErr_field (s : State) : s.clearErr.field = s.field := rfl
@[simp] theorem State.clearErr_inBuf (s : State) : s.clearErr.inBuf = s.inBuf := rfl
@[simp] theorem State.clearErr_outBuf (s : State) : s.clearErr.outBuf = s.outBuf := rfl
@[simp] theorem State.clearErr_pending (s : State) : s.clearErr.pending = s.pending := rfl
@[simp] theorem State.clearErr_received (s : State) : s.clearErr.received = s.received := rfl

@[simp] theorem State.clearFrame_cmd (s : State) : s.clearFrame.cmd = s.cmd := rfl
@[simp] theorem State.clearFrame_status (s : State) : s.clearFrame.status = clearFlag frameValidBit s.status := rfl
@[simp] theorem State.clearFrame_inLen (s : State) : s.clearFrame.inLen = s.inLen := rfl
@[simp] theorem State.clearFrame_error (s : State) : s.clearFrame.error = s.error := rfl
@[simp] theorem State.clearFrame_frame (s : State) : s.clearFrame.frame = {} := rfl
@[simp] theorem State.clearFrame_record (s : State) : s.clearFrame.record = s.record := rfl
@[simp] theorem State.clearFrame_field (s : State) : s.clearFrame.field = s.field := rfl
@[simp] theorem State.clearFrame_inBuf (s : State) : s.clearFrame.inBuf = s.inBuf := rfl
@[simp] theorem State.clearFrame_outBuf (s : State) : s.clearFrame.outBuf = [] := rfl
@[simp] theorem State.clearFrame_pending (s : State) : s.clearFrame.pending = s.pending := rfl
@[simp] theorem State.clearFrame_received (s : State) : s.clearFrame.received = s.received := rfl

@[simp] theorem State.clearRec_cmd (s : State) : s.clearRec.cmd = s.cmd := rfl
@[simp] theorem State.clearRec_status (s : State) : s.clearRec.status = clearFlag recValidBit s.status := rfl
@[simp] theorem State.clearRec_inLen (s : State) : s.clearRec.inLen = s.inLen := rfl
@[simp] theorem State.clearRec_error (s : State) : s.clearRec.error = s.error := rfl
@[simp] theorem State.clearRec_frame (s : State) : s.clearRec.frame = s.frame := rfl
@[simp] theorem State.clearRec_record (s : State) : s.clearRec.record = {} := rfl
@[simp] theorem State.clearRec_field (s : State) : s.clearRec.field = s.field := rfl
@[simp] theorem State.clearRec_inBuf (s : State) : s.clearRec.inBuf = s.inBuf := rfl
@[simp] theorem State.clearRec_outBuf (s : State) : s.clearRec.outBuf = s.outBuf := rfl
@[simp] theorem State.clearRec_pending (s : State) : s.clearRec.pending = s.pending := rfl
@[simp] theorem State.clearRec_received (s : State) : s.clearRec.received = s.received := rfl

@[simp] theorem State.clearField_cmd (s : State) : s.clearField.cmd = s.cmd := rfl
@[simp] theorem State.clearField_status (s : State) : s.clearField.status = clearFlag fieldValidBit s.status := rfl
@[simp] theorem State.clearField_inLen (s : State) : s.clearField.inLen = s.inLen := rfl
@[simp] theorem State.clearField_error (s : State) : s.clearField.error = s.error := rfl
@[simp] theorem State.clearField_frame (s : State) : s.clearField.frame = s.frame := rfl
@[simp] theorem State.clearField_record (s : State) : s.clearField.record = s.record := rfl
@[simp] theorem State.clearField_field (s : State) : s.clearField.field = {} := rfl
@[simp] theorem State.clearField_inBuf (s : State) : s.clearField.inBuf = s.inBuf := rfl
@[simp] theorem State.clearField_outBuf (s : State) : s.clearField.outBuf = s.outBuf := rfl
@[simp] theorem State.clearField_pending (s : State) : s.clearField.pending = s.pending := rfl
@[simp] theorem State.clearField_received (s : State) : s.clearField.received = s.received := rfl

@[simp] theorem State.clearAll_cmd (s : State) : s.clearAll.cmd = s.cmd := rfl
@[simp] theorem State.clearAll_status (s : State) : s.clearAll.status = clearFlag fieldValidBit (clearFlag recValidBit (clearFlag frameValidBit (statusClearErr s.status))) := rfl
@[simp] theorem State.clearAll_inLen (s : State) : s.clearAll.inLen = s.inLen := rfl
@[simp] theorem State.clearAll_error (s : State) : s.clearAll.error = {} := rfl
@[simp] theorem State.clearAll_frame (s : State) : s.clearAll.frame = {} := rfl
@[simp] theorem State.clearAll_record (s : State) : s.clearAll.record = {} := rfl
@[simp] theorem State.clearAll_field (s : State) : s.clearAll.field = {} := rfl
@[simp] theorem State.clearAll_inBuf (s : State) : s.clearAll.inBuf = s.inBuf := rfl
@[simp] theorem State.clearAll_outBuf (s : State) : s.clearAll.outBuf = [] := rfl
@[simp] theorem State.clearAll_pending (s : State) : s.clearAll.pending = s.pending := rfl
@[simp] theorem State.clearAll_received (s : State) : s.clearAll.received = s.received := rfl

@[simp] theorem State.setDone_cmd (s : State) : s.setDone.cmd = s.cmd := rfl
@[simp] theorem State.setDone_status (s : State) : s.setDone.status = setFlag doneBit s.status := rfl
@[simp] theorem State.setDone_inLen (s : State) : s.setDone.inLen = s.inLen := rfl
@[simp] theorem State.setDone_error (s : State) : s.setDone.error = s.error := rfl
@[simp] theorem State.setDone_frame (s : State) : s.setDone.frame = s.frame := rfl
@[simp] theorem State.setDone_record (s : State) : s.setDone.record = s.record := rfl
@[simp] theorem State.setDone_field (s : State) : s.setDone.field = s.field := rfl
@[simp] theorem State.setDone_inBuf (s : State) : s.setDone.inBuf = s.inBuf := rfl
@[simp] theorem State.setDone_outBuf (s : State) : s.setDone.outBuf = s.outBuf := rfl
@[simp] theorem State.setDone_pending (s : State) : s.setDone.pending = s.pending := rfl
@[simp] theorem State.setDone_received (s : State) : s.setDone.received = s.received := rfl

@[simp] theorem State.raise_cmd (s : State) (e : CmdError) :
    (s.raise e).cmd = s.cmd := rfl
@[simp] theorem State.raise_status (s : State) (e : CmdError) :
    (s.raise e).status = statusRaise e.code s.status := rfl
@[simp] theorem State.raise_inLen (s : State) (e : CmdError) :
    (s.raise e).inLen = s.inLen := rfl
@[simp] theorem State.raise_error (s : State) (e : CmdError) :
    (s.raise e).error = { errA := e.detailA, errB := e.detailB } := rfl
@[simp] theorem State.raise_frame (s : State) (e : CmdError) :
    (s.raise e).frame = s.frame := rfl
@[simp] theorem State.raise_record (s : State) (e : CmdError) :
    (s.raise e).record = s.record := rfl
@[simp] theorem State.raise_field (s : State) (e : CmdError) :
    (s.raise e).field = s.field := rfl
@[simp] theorem State.raise_inBuf (s : State) (e : CmdError) :
    (s.raise e).inBuf = s.inBuf := rfl
@[simp] theorem State.raise_outBuf (s : State) (e : CmdError) :
    (s.raise e).outBuf = s.outBuf := rfl
@[simp] theorem State.raise_pending (s : State) (e : CmdError) :
    (s.raise e).pending = s.pending := rfl
@[simp] theorem State.raise_received (s : State) (e : CmdError) :
    (s.raise e).received = s.received := rfl

@[simp] theorem State.illegalWord_cmd (s : State) (w : Word) :
    (s.illegalWord w).cmd = s.cmd := rfl
@[simp] theorem State.illegalWord_status (s : State) (w : Word) :
    (s.illegalWord w).status = setFlag doneBit (statusRaise 0x08#8 (statusClearErr s.status)) := rfl
@[simp] theorem State.illegalWord_inLen (s : State) (w : Word) :
    (s.illegalWord w).inLen = s.inLen := rfl
@[simp] theorem State.illegalWord_error (s : State) (w : Word) :
    (s.illegalWord w).error = { errA := w, errB := 0#32 } := rfl
@[simp] theorem State.illegalWord_frame (s : State) (w : Word) :
    (s.illegalWord w).frame = s.frame := rfl
@[simp] theorem State.illegalWord_record (s : State) (w : Word) :
    (s.illegalWord w).record = s.record := rfl
@[simp] theorem State.illegalWord_field (s : State) (w : Word) :
    (s.illegalWord w).field = s.field := rfl
@[simp] theorem State.illegalWord_inBuf (s : State) (w : Word) :
    (s.illegalWord w).inBuf = s.inBuf := rfl
@[simp] theorem State.illegalWord_outBuf (s : State) (w : Word) :
    (s.illegalWord w).outBuf = s.outBuf := rfl
@[simp] theorem State.illegalWord_pending (s : State) (w : Word) :
    (s.illegalWord w).pending = s.pending := rfl
@[simp] theorem State.illegalWord_received (s : State) (w : Word) :
    (s.illegalWord w).received = s.received := rfl

@[simp] theorem State.commitFrame_cmd (s : State) (f : FrameResult) :
    (s.commitFrame f).cmd = s.cmd := rfl
@[simp] theorem State.commitFrame_status (s : State) (f : FrameResult) :
    (s.commitFrame f).status = setFlag frameValidBit s.status := rfl
@[simp] theorem State.commitFrame_inLen (s : State) (f : FrameResult) :
    (s.commitFrame f).inLen = s.inLen := rfl
@[simp] theorem State.commitFrame_error (s : State) (f : FrameResult) :
    (s.commitFrame f).error = s.error := rfl
@[simp] theorem State.commitFrame_record (s : State) (f : FrameResult) :
    (s.commitFrame f).record = s.record := rfl
@[simp] theorem State.commitFrame_field (s : State) (f : FrameResult) :
    (s.commitFrame f).field = s.field := rfl
@[simp] theorem State.commitFrame_inBuf (s : State) (f : FrameResult) :
    (s.commitFrame f).inBuf = s.inBuf := rfl
@[simp] theorem State.commitFrame_outBuf (s : State) (f : FrameResult) :
    (s.commitFrame f).outBuf = f.payload := rfl
@[simp] theorem State.commitFrame_pending (s : State) (f : FrameResult) :
    (s.commitFrame f).pending = s.pending := rfl
@[simp] theorem State.commitFrame_received (s : State) (f : FrameResult) :
    (s.commitFrame f).received = s.received := rfl

@[simp] theorem State.commitRecord_cmd (s : State) (t : RawTime) :
    (s.commitRecord t).cmd = s.cmd := rfl
@[simp] theorem State.commitRecord_status (s : State) (t : RawTime) :
    (s.commitRecord t).status = setFlag recValidBit s.status := rfl
@[simp] theorem State.commitRecord_inLen (s : State) (t : RawTime) :
    (s.commitRecord t).inLen = s.inLen := rfl
@[simp] theorem State.commitRecord_error (s : State) (t : RawTime) :
    (s.commitRecord t).error = s.error := rfl
@[simp] theorem State.commitRecord_frame (s : State) (t : RawTime) :
    (s.commitRecord t).frame = s.frame := rfl
@[simp] theorem State.commitRecord_field (s : State) (t : RawTime) :
    (s.commitRecord t).field = s.field := rfl
@[simp] theorem State.commitRecord_inBuf (s : State) (t : RawTime) :
    (s.commitRecord t).inBuf = s.inBuf := rfl
@[simp] theorem State.commitRecord_outBuf (s : State) (t : RawTime) :
    (s.commitRecord t).outBuf = s.outBuf := rfl
@[simp] theorem State.commitRecord_pending (s : State) (t : RawTime) :
    (s.commitRecord t).pending = s.pending := rfl
@[simp] theorem State.commitRecord_received (s : State) (t : RawTime) :
    (s.commitRecord t).received = s.received := rfl

@[simp] theorem State.commitField_cmd (s : State) (f : FieldGroup) :
    (s.commitField f).cmd = s.cmd := rfl
@[simp] theorem State.commitField_status (s : State) (f : FieldGroup) :
    (s.commitField f).status = setFlag fieldValidBit s.status := rfl
@[simp] theorem State.commitField_inLen (s : State) (f : FieldGroup) :
    (s.commitField f).inLen = s.inLen := rfl
@[simp] theorem State.commitField_error (s : State) (f : FieldGroup) :
    (s.commitField f).error = s.error := rfl
@[simp] theorem State.commitField_frame (s : State) (f : FieldGroup) :
    (s.commitField f).frame = s.frame := rfl
@[simp] theorem State.commitField_record (s : State) (f : FieldGroup) :
    (s.commitField f).record = s.record := rfl
@[simp] theorem State.commitField_field (s : State) (f : FieldGroup) :
    (s.commitField f).field = f := rfl
@[simp] theorem State.commitField_inBuf (s : State) (f : FieldGroup) :
    (s.commitField f).inBuf = s.inBuf := rfl
@[simp] theorem State.commitField_outBuf (s : State) (f : FieldGroup) :
    (s.commitField f).outBuf = s.outBuf := rfl
@[simp] theorem State.commitField_pending (s : State) (f : FieldGroup) :
    (s.commitField f).pending = s.pending := rfl
@[simp] theorem State.commitField_received (s : State) (f : FieldGroup) :
    (s.commitField f).received = s.received := rfl

@[simp] theorem State.resetCore_cmd (s : State) : s.resetCore.cmd = 0#32 := rfl
@[simp] theorem State.resetCore_status (s : State) : s.resetCore.status = 0#32 := rfl
@[simp] theorem State.resetCore_inLen (s : State) : s.resetCore.inLen = 0#32 := rfl
@[simp] theorem State.resetCore_error (s : State) : s.resetCore.error = {} := rfl
@[simp] theorem State.resetCore_frame (s : State) : s.resetCore.frame = {} := rfl
@[simp] theorem State.resetCore_record (s : State) : s.resetCore.record = {} := rfl
@[simp] theorem State.resetCore_field (s : State) : s.resetCore.field = {} := rfl
@[simp] theorem State.resetCore_inBuf (s : State) : s.resetCore.inBuf = [] := rfl
@[simp] theorem State.resetCore_outBuf (s : State) : s.resetCore.outBuf = [] := rfl
@[simp] theorem State.resetCore_pending (s : State) : s.resetCore.pending = s.pending := rfl
@[simp] theorem State.resetCore_received (s : State) : s.resetCore.received = s.received := rfl

/-- The header registers of a committed frame (R82). -/
@[simp] theorem State.commitFrame_hdrKind (s : State) (f : FrameResult) :
    (s.commitFrame f).frame.hdrKind = f.kind.setWidth 32 := rfl
@[simp] theorem State.commitFrame_hdrDlen (s : State) (f : FrameResult) :
    (s.commitFrame f).frame.hdrDlen = BitVec.ofNat 32 f.dl := rfl
@[simp] theorem State.commitFrame_hdrId (s : State) (f : FrameResult) :
    (s.commitFrame f).frame.hdrId = BitVec.ofNat 32 f.id := rfl
@[simp] theorem State.commitFrame_hdrProto (s : State) (f : FrameResult) :
    (s.commitFrame f).frame.hdrProto = BitVec.ofNat 32 f.proto := rfl
@[simp] theorem State.commitFrame_hdrUnit (s : State) (f : FrameResult) :
    (s.commitFrame f).frame.hdrUnit = f.unit.setWidth 32 := rfl
@[simp] theorem State.commitFrame_kindClass (s : State) (f : FrameResult) :
    (s.commitFrame f).frame.kindClass = BitVec.ofNat 32 (kindClassOf f.kind) := rfl
@[simp] theorem State.commitFrame_crcRx (s : State) (f : FrameResult) :
    (s.commitFrame f).frame.crcRx = f.rx.setWidth 32 := rfl
@[simp] theorem State.commitFrame_crcCalc (s : State) (f : FrameResult) :
    (s.commitFrame f).frame.crcCalc = f.computed.setWidth 32 := rfl


end Sys2Proof.Machine
end

