-- ==== Sys2Proof/Laws/Ops.lean ====
section
/-! SUPPORT. What the shared operations of Machine/Ops.lean can do: how a command ends, STATUS after the
clear operations, and the input a command reads. -/
namespace Sys2Proof.Machine

/-- A command ends in a next state exactly by committing its result or by raising an error. -/
theorem Attempt.settle_eq_next {α : Type} {a : Attempt α} {s t : State} {c : State → α → State} :
    a.settle s c = .next t ↔
      (∃ x, a = .ok x ∧ t = (c s x).setDone) ∨ (∃ e, a = .raised e ∧ t = (s.raise e).setDone) := by
  cases a <;> simp [Attempt.settle, eq_comm]

theorem Attempt.settle_eq_refused {α : Type} {a : Attempt α} {s : State} {c : State → α → State}
    {r : Refusal} : a.settle s c = .refused r ↔ a = .refused r := by
  cases a <;> simp [Attempt.settle]

theorem Attempt.settle_eq_fault {α : Type} {a : Attempt α} {s : State} {c : State → α → State}
    {f : Fault} : a.settle s c = .fault f ↔ a = .fault f := by
  cases a <;> simp [Attempt.settle]

/-- STATUS after `ClearErr; ClearFrame; ClearRec; ClearField`: DONE, BUSY and the reserved bits are kept. -/
theorem status_clearAll (st : Word) :
    clearFlag fieldValidBit (clearFlag recValidBit (clearFlag frameValidBit (statusClearErr st))) =
      st &&& 0xFFFF00C3#32 := by
  simp [statusClearErr_eq, clearFlag, fieldValidBit, recValidBit, frameValidBit, BitVec.and_assoc]

/-- STATUS after `ClearErr; ClearRec; ClearField`, the start of RECORD. -/
theorem status_clearRecord (st : Word) :
    clearFlag fieldValidBit (clearFlag recValidBit (statusClearErr st)) = st &&& 0xFFFF00CB#32 := by
  simp [statusClearErr_eq, clearFlag, fieldValidBit, recValidBit, BitVec.and_assoc]

/-- STATUS after `ClearErr; ClearField`, the start of FIELD. -/
theorem status_clearField (st : Word) :
    clearFlag fieldValidBit (statusClearErr st) = st &&& 0xFFFF00DB#32 := by
  simp [statusClearErr_eq, clearFlag, fieldValidBit, BitVec.and_assoc]

/-- STATUS after a group's flag and DONE are set. -/
theorem status_flag_done (n : Nat) (st m : Word) :
    setFlag doneBit (setFlag n (st &&& m)) = (st &&& m) ||| ((1#32 <<< n) ||| 1#32) := by
  simp [setFlag, doneBit, BitVec.or_assoc]

/-- STATUS after an error and DONE. -/
theorem status_raise_done (c : Byte) (st m : Word) :
    setFlag doneBit (statusRaise c (st &&& m)) =
      (st &&& (m &&& 0xFFFF00FB#32)) ||| ((c.setWidth 32 <<< 8) ||| 5#32) := by
  rw [statusRaise_eq, setFlag]
  simp only [doneBit, BitVec.and_assoc, BitVec.or_assoc]
  rfl

/-- A written input is read as it stands. -/
theorem State.inputIs.bytes {s : State} {bs : List Byte} (h : s.inputIs bs) :
    s.inBuf.bytes 0 s.inLen.toNat = some bs :=
  Memory.bytes_eq_some.2 ⟨h.1.symm, fun j hj => by simpa using h.2 j (h.1 ▸ hj)⟩

/-- The bytes a command reads are its written input. -/
theorem State.inputIs_of_bytes {s : State} {bs : List Byte} (h : s.inBuf.bytes 0 s.inLen.toNat = some bs) :
    s.inputIs bs := by
  obtain ⟨hl, hr⟩ := Memory.bytes_eq_some.1 h
  exact ⟨hl.symm, fun i hi => by simpa using hr i (hl ▸ hi)⟩

end Sys2Proof.Machine
end

