-- ==== Sys2Proof/Laws/Field.lean ====
section
/-! SUPPORT. What FIELD (44_field_select.md R103) can come to. -/
namespace Sys2Proof.Machine

/-- Every outcome of the field selection, with the check that leads to it (R103, R112). -/
theorem fieldSelect_cases (s : State) (sel : Byte) :
    (layout s.record.extraLen.toNat sel = none ∧ fieldSelect s sel = .raised (.badSelector sel)) ∨
    ∃ row, layout s.record.extraLen.toNat sel = some row ∧
      ((flag recValidBit s.status = false ∧ fieldSelect s sel = .raised .noRecord) ∨
       (flag recValidBit s.status = true ∧
         ((row.type = .bytes ∧ fieldSelect s sel = .ok (bytesField sel row)) ∨
          (row.type ≠ .bytes ∧ s.outBuf.length < row.off + row.width ∧
            fieldSelect s sel = .fault .outBufRange) ∨
          (row.type ≠ .bytes ∧ row.off + row.width ≤ s.outBuf.length ∧
            fieldSelect s sel =
              .ok (numberField sel row (be (slice s.outBuf row.off row.width))))))) := by
  cases hl : layout s.record.extraLen.toNat sel with
  | none => exact .inl ⟨rfl, by simp [fieldSelect, hl]⟩
  | some row =>
    refine .inr ⟨row, rfl, ?_⟩
    cases hv : flag recValidBit s.status with
    | false => exact .inl ⟨rfl, by simp [fieldSelect, hl, hv]⟩
    | true =>
      refine .inr ⟨rfl, ?_⟩
      by_cases ht : row.type = .bytes
      · exact .inl ⟨ht, by simp [fieldSelect, hl, hv, ht]⟩
      · by_cases hb : s.outBuf.length < row.off + row.width
        · exact .inr (.inl ⟨ht, hb, by simp [fieldSelect, hl, hv, ht, hb]⟩)
        · exact .inr (.inr ⟨ht, by omega, by simp [fieldSelect, hl, hv, ht, hb]⟩)

/-- The field selection reads REC_VALID, EXTRA_LEN and OUT_BUF alone (R32). -/
theorem fieldSelect_congr {s s' : State} (sel : Byte)
    (hf : flag recValidBit s'.status = flag recValidBit s.status)
    (he : s'.record.extraLen = s.record.extraLen) (ho : s'.outBuf = s.outBuf) :
    fieldSelect s' sel = fieldSelect s sel := by
  simp only [fieldSelect, State.outLen, hf, he, ho]

theorem fieldSelect_ne_refused (s : State) (sel : Byte) (r : Refusal) : fieldSelect s sel ≠ .refused r := by
  rcases fieldSelect_cases s sel with ⟨_, h⟩ | ⟨_, _, ⟨_, h⟩ | ⟨_, ⟨_, h⟩ | ⟨_, _, h⟩ | ⟨_, _, h⟩⟩⟩ <;> simp [h]

end Sys2Proof.Machine
end

