-- ==== Sys2Proof/Laws/Frame.lean ====
section
/-! SUPPORT. What FrameDecode (42_frame_decode.md R84) can come to. -/
namespace Sys2Proof.Machine

/-- The header parse reads exactly the bytes 0 to 7 (R77). -/
theorem headerParse_of_bytes {s : State} {i0 i1 p0 p1 d0 d1 unit kind : Byte}
    (h : ∀ j, j < 8 → s.inBuf.read j = [i0, i1, p0, p1, d0, d1, unit, kind][j]?) :
    headerParse s =
      some { id := be [i0, i1], proto := be [p0, p1], dl := be [d0, d1], unit := unit, kind := kind } := by
  have hb : s.inBuf.bytes 0 8 = some [i0, i1, p0, p1, d0, d1, unit, kind] :=
    Memory.bytes_eq_some.2 ⟨rfl, fun j hj => by simpa using h j hj⟩
  simp [headerParse, Config.hdrLen, hb]

theorem headerParse_eq_some {s : State} {h : Header} (hp : headerParse s = some h) :
    ∃ i0 i1 p0 p1 d0 d1 unit kind, s.inBuf.bytes 0 8 = some [i0, i1, p0, p1, d0, d1, unit, kind] ∧
      h = { id := be [i0, i1], proto := be [p0, p1], dl := be [d0, d1], unit := unit, kind := kind } := by
  simp only [headerParse, Config.hdrLen] at hp
  split at hp
  · rename_i i0 i1 p0 p1 d0 d1 unit kind hb
    exact ⟨i0, i1, p0, p1, d0, d1, unit, kind, hb, by simpa using hp.symm⟩
  · cases hp

/-- The header parse stops exactly when one of the bytes 0 to 7 is unwritten. -/
theorem headerParse_eq_none {s : State} (h : s.inBuf.bytes 0 8 = none) : headerParse s = none := by
  simp [headerParse, Config.hdrLen, h]

/-- FrameDecode on what it reads: the length, the header and the bytes (R84). -/
theorem frameDecode_eq (s : State) : frameDecode s =
    if s.inLen.toNat < 10 then .raised (.truncated 10 s.inLen.toNat)
    else match headerParse s with
      | none => .refused .unwrittenInput
      | some h =>
        if s.inLen.toNat < h.dl + 8 then .raised (.truncated (h.dl + 8) s.inLen.toNat)
        else if h.dl + 8 < s.inLen.toNat then .raised (.lengthMismatch (h.dl + 8) s.inLen.toNat)
        else match s.inBuf.bytes 0 s.inLen.toNat with
          | none => .refused .unwrittenInput
          | some bytes => frameBody h bytes := rfl

/-- Every outcome of FrameDecode, with the check that leads to it (R79, R112, R118 F7). -/
theorem frameDecode_cases (s : State) :
    (s.inLen.toNat < 10 ∧ frameDecode s = .raised (.truncated 10 s.inLen.toNat)) ∨
    (10 ≤ s.inLen.toNat ∧ headerParse s = none ∧ frameDecode s = .refused .unwrittenInput) ∨
    ∃ h, 10 ≤ s.inLen.toNat ∧ headerParse s = some h ∧
      ((s.inLen.toNat < h.dl + 8 ∧ frameDecode s = .raised (.truncated (h.dl + 8) s.inLen.toNat)) ∨
       (h.dl + 8 < s.inLen.toNat ∧ frameDecode s = .raised (.lengthMismatch (h.dl + 8) s.inLen.toNat)) ∨
       (s.inLen.toNat = h.dl + 8 ∧
         ((s.inBuf.bytes 0 s.inLen.toNat = none ∧ frameDecode s = .refused .unwrittenInput) ∨
          ∃ bs, s.inBuf.bytes 0 s.inLen.toNat = some bs ∧ frameDecode s = frameBody h bs))) := by
  by_cases h10 : s.inLen.toNat < 10
  · exact .inl ⟨h10, by simp [frameDecode_eq, h10]⟩
  · refine .inr ?_
    cases hp : headerParse s with
    | none => exact .inl ⟨by omega, rfl, by simp [frameDecode_eq, h10, hp]⟩
    | some h =>
      refine .inr ⟨h, by omega, rfl, ?_⟩
      by_cases h1 : s.inLen.toNat < h.dl + 8
      · exact .inl ⟨h1, by simp [frameDecode_eq, h10, hp, h1]⟩
      · by_cases h2 : h.dl + 8 < s.inLen.toNat
        · exact .inr (.inl ⟨h2, by simp [frameDecode_eq, h10, hp, h1, h2]⟩)
        · refine .inr (.inr ⟨by omega, ?_⟩)
          cases hb : s.inBuf.bytes 0 s.inLen.toNat with
          | none => exact .inl ⟨rfl, by simp [frameDecode_eq, h10, hp, h1, h2, hb]⟩
          | some bs => exact .inr ⟨bs, rfl, by simp [frameDecode_eq, h10, hp, h1, h2, hb]⟩

/-- FrameDecode reads IN_LEN and IN_BUF[0, L) alone (R32). -/
theorem frameDecode_congr {s s' : State} (hl : s'.inLen = s.inLen)
    (hr : ∀ a, a < s.inLen.toNat → s'.inBuf.read a = s.inBuf.read a) : frameDecode s' = frameDecode s := by
  have hb : s'.inBuf.bytes 0 s.inLen.toNat = s.inBuf.bytes 0 s.inLen.toNat :=
    Memory.bytes_congr fun j hj => by simpa using hr j hj
  rw [frameDecode_eq s', frameDecode_eq s, hl, hb]
  by_cases h10 : s.inLen.toNat < 10
  · rw [if_pos h10, if_pos h10]
  · have h8 : s'.inBuf.bytes 0 8 = s.inBuf.bytes 0 8 :=
      Memory.bytes_congr fun j hj => by simpa using hr j (by omega)
    have hp : headerParse s' = headerParse s := by simp [headerParse, Config.hdrLen, h8]
    rw [hp]

@[simp] theorem frameDecode_clearAll (s : State) : frameDecode s.clearAll = frameDecode s :=
  frameDecode_congr rfl fun _ _ => rfl

/-- A buffer of at least 10 bytes has the shape of a wire frame (R57). -/
theorem exists_wire (bs : List Byte) (h : 10 ≤ bs.length) :
    ∃ i0 i1 p0 p1 d0 d1 unit kind pl c0 c1,
      bs = wireBody i0 i1 p0 p1 d0 d1 unit kind pl ++ [c0, c1] := by
  obtain ⟨i0, i1, p0, p1, d0, d1, unit, kind, rest, rfl⟩ : ∃ i0 i1 p0 p1 d0 d1 unit kind rest,
      bs = i0 :: i1 :: p0 :: p1 :: d0 :: d1 :: unit :: kind :: rest := by
    match bs, h with
    | i0 :: i1 :: p0 :: p1 :: d0 :: d1 :: unit :: kind :: rest, _ =>
      exact ⟨i0, i1, p0, p1, d0, d1, unit, kind, rest, rfl⟩
  have hr : 2 ≤ rest.length := by simpa using h
  obtain ⟨c0, c1, hc⟩ : ∃ c0 c1, rest.drop (rest.length - 2) = [c0, c1] := by
    have : (rest.drop (rest.length - 2)).length = 2 := by simp; omega
    exact List.length_eq_two.1 this
  exact ⟨i0, i1, p0, p1, d0, d1, unit, kind, rest.take (rest.length - 2), c0, c1, by
    simp [wireBody, ← hc]⟩

/-- The body check on a wire frame (R80, R81). -/
theorem frameBody_wire (h : Header) (i0 i1 p0 p1 d0 d1 unit kind c0 c1 : Byte) (pl : List Byte) :
    frameBody h (wireBody i0 i1 p0 p1 d0 d1 unit kind pl ++ [c0, c1]) =
      if (c0 ++ c1 : Crc) ≠ crc16 (wireBody i0 i1 p0 p1 d0 d1 unit kind pl) then
        .raised (.checksumMismatch (c0 ++ c1) (crc16 (wireBody i0 i1 p0 p1 d0 d1 unit kind pl)))
      else .ok { id := h.id, proto := h.proto, dl := h.dl, unit := h.unit, kind := h.kind, rx := c0 ++ c1,
                 computed := crc16 (wireBody i0 i1 p0 p1 d0 d1 unit kind pl), payload := mask pl } := by
  have hn : (wireBody i0 i1 p0 p1 d0 d1 unit kind pl ++ [c0, c1]).length - 2 =
      (wireBody i0 i1 p0 p1 d0 d1 unit kind pl).length := by simp
  have htake : (wireBody i0 i1 p0 p1 d0 d1 unit kind pl ++ [c0, c1]).take
      (wireBody i0 i1 p0 p1 d0 d1 unit kind pl).length = wireBody i0 i1 p0 p1 d0 d1 unit kind pl :=
    List.take_left
  have hcrc : slice (wireBody i0 i1 p0 p1 d0 d1 unit kind pl ++ [c0, c1])
      (wireBody i0 i1 p0 p1 d0 d1 unit kind pl).length 2 = [c0, c1] := by
    simp [slice]
  have hpl : slice (wireBody i0 i1 p0 p1 d0 d1 unit kind pl ++ [c0, c1]) 8
      ((wireBody i0 i1 p0 p1 d0 d1 unit kind pl).length - 8) = pl := by
    simp [slice, wireBody]
  simp only [frameBody, Config.crcLen, Config.hdrLen, hn, htake, hcrc, hpl, ofNat16_be_pair]

/-- FrameDecode on a written wire frame: the length checks, the checksum, the result (R79 to R82). -/
theorem frameDecode_wire {s : State} {i0 i1 p0 p1 d0 d1 unit kind c0 c1 : Byte} {pl : List Byte}
    (hin : s.inputIs (wireBody i0 i1 p0 p1 d0 d1 unit kind pl ++ [c0, c1])) :
    frameDecode s =
      if pl.length + 2 < be [d0, d1] then .raised (.truncated (be [d0, d1] + 8) (pl.length + 10))
      else if be [d0, d1] < pl.length + 2 then .raised (.lengthMismatch (be [d0, d1] + 8) (pl.length + 10))
      else if (c0 ++ c1 : Crc) ≠ crc16 (wireBody i0 i1 p0 p1 d0 d1 unit kind pl) then
        .raised (.checksumMismatch (c0 ++ c1) (crc16 (wireBody i0 i1 p0 p1 d0 d1 unit kind pl)))
      else .ok { id := be [i0, i1], proto := be [p0, p1], dl := be [d0, d1], unit := unit, kind := kind,
                 rx := c0 ++ c1, computed := crc16 (wireBody i0 i1 p0 p1 d0 d1 unit kind pl),
                 payload := mask pl } := by
  have hL : s.inLen.toNat = pl.length + 10 := by simpa [wireBody] using hin.1
  have hp : headerParse s = some { id := be [i0, i1], proto := be [p0, p1], dl := be [d0, d1], unit := unit,
                                   kind := kind } := headerParse_of_bytes fun j hj => by
    rw [hin.2 j (by simp [wireBody]; omega)]
    simp only [wireBody, List.append_assoc]
    rw [List.getElem?_append_left (by simpa using hj)]
  have hb := hin.bytes
  rw [hL] at hb
  rw [frameDecode_eq, hL, hp, hb, if_neg (by omega)]
  dsimp only
  by_cases h1 : pl.length + 2 < be [d0, d1]
  · rw [if_pos (by omega), if_pos h1]
  · rw [if_neg (by omega), if_neg h1]
    by_cases h2 : be [d0, d1] < pl.length + 2
    · rw [if_pos (by omega), if_pos h2]
    · rw [if_neg (by omega), if_neg h2, frameBody_wire]

/-- A frame decodes exactly when its input is a wire frame whose lengths agree and whose checksum matches. -/
theorem frameDecode_eq_ok {s : State} {f : FrameResult} (h : frameDecode s = .ok f) :
    ∃ i0 i1 p0 p1 d0 d1 unit kind c0 c1 pl,
      s.inputIs (wireBody i0 i1 p0 p1 d0 d1 unit kind pl ++ [c0, c1]) ∧ pl.length + 2 = be [d0, d1] ∧
      (c0 ++ c1 : Crc) = crc16 (wireBody i0 i1 p0 p1 d0 d1 unit kind pl) ∧
      f = { id := be [i0, i1], proto := be [p0, p1], dl := be [d0, d1], unit := unit, kind := kind,
            rx := c0 ++ c1, computed := crc16 (wireBody i0 i1 p0 p1 d0 d1 unit kind pl),
            payload := mask pl } := by
  have hcs := frameDecode_cases s
  rw [h] at hcs
  obtain ⟨_, hc⟩ | ⟨_, _, hc⟩ | ⟨hd, h10, _, ⟨_, hc⟩ | ⟨_, hc⟩ | ⟨_, ⟨_, hc⟩ | ⟨bs, hb, _⟩⟩⟩ := hcs <;>
    try cases hc
  have hin := State.inputIs_of_bytes hb
  obtain ⟨i0, i1, p0, p1, d0, d1, unit, kind, pl, c0, c1, rfl⟩ := exists_wire bs (by rw [← hin.1]; exact h10)
  rw [frameDecode_wire hin] at h
  split_ifs at h with h1 h2 h3
  exact ⟨i0, i1, p0, p1, d0, d1, unit, kind, c0, c1, pl, hin, by omega, by simpa using h3,
    by simpa using h.symm⟩

/-- The errors FrameDecode raises (R111, R112). -/
theorem frameDecode_raised {s : State} {e : CmdError} (h : frameDecode s = .raised e) :
    e.code = 0x01#8 ∨ e.code = 0x02#8 ∨ e.code = 0x04#8 := by
  have hcs := frameDecode_cases s
  rw [h] at hcs
  obtain ⟨_, hc⟩ | ⟨_, _, hc⟩ | ⟨hd, h10, _, ⟨_, hc⟩ | ⟨_, hc⟩ | ⟨_, ⟨_, hc⟩ | ⟨bs, hb, hc⟩⟩⟩ := hcs
  · simp_all [CmdError.code]
  · cases hc
  · simp_all [CmdError.code]
  · simp_all [CmdError.code]
  · cases hc
  · simp only [frameBody] at hc
    split_ifs at hc
    simp_all [CmdError.code]

/-- FrameDecode never faults. -/
theorem frameDecode_ne_fault (s : State) (f : Fault) : frameDecode s ≠ .fault f := by
  intro h
  have hcs := frameDecode_cases s
  rw [h] at hcs
  obtain ⟨_, hc⟩ | ⟨_, _, hc⟩ | ⟨hd, h10, _, ⟨_, hc⟩ | ⟨_, hc⟩ | ⟨_, ⟨_, hc⟩ | ⟨bs, hb, hc⟩⟩⟩ := hcs <;>
    try cases hc
  simp only [frameBody] at hc
  split_ifs at hc

end Sys2Proof.Machine
end

