-- ==== Sys2Proof/Laws/Record.lean ====
section
/-! SUPPORT. What RecordDecode (43_record_decode.md R96) can come to. -/
namespace Sys2Proof.Machine

/-- A payload of at least 66 bytes has its six date and time bytes (R87, R89). -/
theorem rawTimeOf_isSome {payload : List Byte} (h : 66 ≤ payload.length) :
    ∃ t, rawTimeOf payload = some t ∧ payload[60]? = some t.y ∧ payload[61]? = some t.mo ∧
      payload[62]? = some t.d ∧ payload[63]? = some t.h ∧ payload[64]? = some t.mi ∧
      payload[65]? = some t.s := by
  have hs : slice payload 60 6 =
      [payload[60], payload[61], payload[62], payload[63], payload[64], payload[65]] := by
    apply List.ext_getElem
    · rw [slice_length]; simp; omega
    · intro i h1 h2
      have hi : i < 6 := by simpa using h2
      interval_cases i <;> simp [slice]
  refine ⟨⟨payload[60], payload[61], payload[62], payload[63], payload[64], payload[65]⟩, ?_, ?_⟩
  · simp [rawTimeOf, hs]
  · simp

/-- RecordDecode with its intermediate values written in place (R96). -/
theorem recordDecode_eq (s : State) : recordDecode s =
    if flag frameValidBit s.status = false ∨ s.frame.hdrKind ≠ 0x04#32 then
      .raised (.notData (flag frameValidBit s.status) s.frame.hdrKind)
    else if s.outBuf.length < 409 then .raised (.truncated 409 s.outBuf.length)
    else match rawTimeOf s.outBuf with
      | none => .fault .outBufRange
      | some t => if t.valid then .ok t else .raised (.invalidTimestamp t.y t.mo t.d t.h t.mi t.s) := rfl

/-- Every outcome of RecordDecode, with the check that leads to it (R86, R87, R90, R112). -/
theorem recordDecode_cases (s : State) :
    ((flag frameValidBit s.status = false ∨ s.frame.hdrKind ≠ 0x04#32) ∧
      recordDecode s = .raised (.notData (flag frameValidBit s.status) s.frame.hdrKind)) ∨
    (flag frameValidBit s.status = true ∧ s.frame.hdrKind = 0x04#32 ∧
      ((s.outBuf.length < 409 ∧ recordDecode s = .raised (.truncated 409 s.outBuf.length)) ∨
       (409 ≤ s.outBuf.length ∧ ∃ t, rawTimeOf s.outBuf = some t ∧
         s.timeBytes t.y t.mo t.d t.h t.mi t.s ∧
         ((t.valid = true ∧ recordDecode s = .ok t) ∨
          (t.valid = false ∧
            recordDecode s = .raised (.invalidTimestamp t.y t.mo t.d t.h t.mi t.s)))))) := by
  by_cases h : flag frameValidBit s.status = false ∨ s.frame.hdrKind ≠ 0x04#32
  · exact .inl ⟨h, by rw [recordDecode_eq, if_pos h]⟩
  · have h' := h
    push Not at h'
    refine .inr ⟨by simpa using h'.1, h'.2, ?_⟩
    by_cases hl : s.outBuf.length < 409
    · exact .inl ⟨hl, by rw [recordDecode_eq, if_neg h, if_pos hl]⟩
    · obtain ⟨t, ht, hb⟩ := rawTimeOf_isSome (payload := s.outBuf) (by omega)
      refine .inr ⟨by omega, t, ht, hb, ?_⟩
      have hd : recordDecode s = if t.valid then .ok t else
          .raised (.invalidTimestamp t.y t.mo t.d t.h t.mi t.s) := by
        rw [recordDecode_eq, if_neg h, if_neg hl, ht]
      cases hv : t.valid with
      | true => exact .inl ⟨rfl, by rw [hd, hv]; rfl⟩
      | false => exact .inr ⟨rfl, by rw [hd, hv]; rfl⟩

/-- RecordDecode reads FRAME_VALID, HDR_KIND and OUT_BUF alone (R32). -/
theorem recordDecode_congr {s s' : State} (hf : flag frameValidBit s'.status = flag frameValidBit s.status)
    (hk : s'.frame.hdrKind = s.frame.hdrKind) (ho : s'.outBuf = s.outBuf) :
    recordDecode s' = recordDecode s := by
  simp only [recordDecode_eq, hf, hk, ho]

/-- RecordDecode never refuses and never faults: its payload is long enough when it is read (R87). -/
theorem recordDecode_ne_refused (s : State) (r : Refusal) : recordDecode s ≠ .refused r := by
  rcases recordDecode_cases s with ⟨_, h⟩ | ⟨_, _, ⟨_, h⟩ | ⟨_, t, _, _, ⟨_, h⟩ | ⟨_, h⟩⟩⟩ <;> simp [h]

theorem recordDecode_ne_fault (s : State) (f : Fault) : recordDecode s ≠ .fault f := by
  rcases recordDecode_cases s with ⟨_, h⟩ | ⟨_, _, ⟨_, h⟩ | ⟨_, t, _, _, ⟨_, h⟩ | ⟨_, h⟩⟩⟩ <;> simp [h]

/-- The model's calendar check is the calendar of R90. -/
theorem dim_eq_monthDays (Y mo : Nat) (h1 : 1 ≤ mo) (h2 : mo ≤ 12) : dim Y mo = monthDays Y mo := by
  have hl : (leap Y = true) ↔ leapYear Y := by
    simp [leap, leapYear]
  interval_cases mo <;> simp [dim, monthDays, hl]

theorem valid_iff (t : RawTime) : t.valid = true ↔ validDateTime t.y t.mo t.d t.h t.mi t.s := by
  have hy : t.year = 2000 + t.y.toNat := rfl
  simp only [RawTime.valid, validDateTime, Bool.and_eq_true, decide_eq_true_eq, hy]
  constructor
  · rintro ⟨⟨⟨⟨⟨⟨h1, h2⟩, h3⟩, h4⟩, h5⟩, h6⟩, h7⟩
    exact ⟨⟨h1, h2⟩, ⟨h3, dim_eq_monthDays _ _ h1 h2 ▸ h4⟩, h5, h6, h7⟩
  · rintro ⟨⟨h1, h2⟩, ⟨h3, h4⟩, h5, h6, h7⟩
    exact ⟨⟨⟨⟨⟨⟨h1, h2⟩, h3⟩, (dim_eq_monthDays _ _ h1 h2).symm ▸ h4⟩, h5⟩, h6⟩, h7⟩

end Sys2Proof.Machine
end

