-- ==== Sys2Proof/Laws/Ends.lean ====
section
/-! SUPPORT. The states commands end in, in the words of Safety.lean: each group's clear operations, then an
error or a commit, then DONE (R104, R110). -/
namespace Sys2Proof.Machine

/-- STATUS after an error: DONE, ERR and the code. -/
def errStatus (c : Byte) : Word := (c.setWidth 32 <<< 8) ||| 5#32

/-- STATUS after each error (R111). -/
@[simp] theorem errStatus_truncated (n a : Nat) : errStatus (CmdError.truncated n a).code = 0x00000105#32 := by
  simp only [CmdError.code]; decide
@[simp] theorem errStatus_checksumMismatch (x c : Crc) :
    errStatus (CmdError.checksumMismatch x c).code = 0x00000205#32 := by
  simp only [CmdError.code]; decide
@[simp] theorem errStatus_invalidTimestamp (y mo d h mi s : Byte) :
    errStatus (CmdError.invalidTimestamp y mo d h mi s).code = 0x00000305#32 := by
  simp only [CmdError.code]; decide
@[simp] theorem errStatus_lengthMismatch (n a : Nat) :
    errStatus (CmdError.lengthMismatch n a).code = 0x00000405#32 := by
  simp only [CmdError.code]; decide
@[simp] theorem errStatus_notData (v : Bool) (k : Word) : errStatus (CmdError.notData v k).code = 0x00000505#32 := by
  simp only [CmdError.code]; decide
@[simp] theorem errStatus_noRecord : errStatus CmdError.noRecord.code = 0x00000605#32 := by
  simp only [CmdError.code]; decide
@[simp] theorem errStatus_badSelector (sel : Byte) : errStatus (CmdError.badSelector sel).code = 0x00000705#32 := by
  simp only [CmdError.code]; decide

/-- DONE is set with the error, so it need not be kept. -/
theorem errStatus_keep (c : Byte) (st m : Word) :
    (st &&& (m ||| 1#32)) ||| ((c.setWidth 32 <<< 8) ||| 5#32) = (st &&& m) ||| errStatus c := by
  have h := mask_keep_part st m ((c.setWidth 32 <<< 8) ||| 4#32) 1#32
  simp only [BitVec.or_assoc] at h
  exact h

/-- An error after all groups are cleared (FRAME, DECODE). -/
theorem clearAll_raise (s : State) (e : CmdError) :
    (s.clearAll.raise e).setDone = s.frameFailed (errStatus e.code) e.detailA e.detailB := by
  simp only [State.setDone, State.raise, State.clearAll_status, status_clearAll, status_raise_done]
  exact congrArg (fun st => ({ s.clearAll with status := st, error := { errA := e.detailA, errB := e.detailB } } : State))
    (errStatus_keep e.code s.status 0xFFFF00C2#32)

/-- An error of RECORD. -/
theorem clearRecord_raise (s : State) (e : CmdError) :
    (s.clearErr.clearRec.clearField.raise e).setDone =
      s.recordFailed (errStatus e.code) e.detailA e.detailB := by
  simp only [State.setDone, State.raise, State.clearField_status, State.clearRec_status, State.clearErr_status,
    status_clearRecord, status_raise_done]
  exact congrArg (fun st => ({ s.clearErr.clearRec.clearField with status := st, error := { errA := e.detailA, errB := e.detailB } } : State))
    (errStatus_keep e.code s.status 0xFFFF00CA#32)

/-- An error of FIELD. -/
theorem clearField_raise (s : State) (e : CmdError) :
    (s.clearErr.clearField.raise e).setDone =
      s.fieldEnd (errStatus e.code) { errA := e.detailA, errB := e.detailB } {} := by
  simp only [State.setDone, State.raise, State.clearField_status, State.clearErr_status,
    status_clearField, status_raise_done]
  exact congrArg (fun st => ({ s.clearErr.clearField with status := st, error := { errA := e.detailA, errB := e.detailB } } : State))
    (errStatus_keep e.code s.status 0xFFFF00DA#32)

/-- Setting DONE, with a word that keeps DONE. -/
theorem setDone_keep (st m : Word) : setFlag doneBit (st &&& (m ||| 1#32)) = (st &&& m) ||| 1#32 :=
  mask_keep_set st m 1#32

/-- All groups cleared and DONE set (CLEAR, and CRC16 and XOR before their result). -/
theorem clearAll_done (s : State) : s.clearAll.setDone = s.clearedWith 0x00000001#32 := by
  have h := setDone_keep s.status 0xFFFF00C2#32
  simp only [State.setDone, State.clearAll_status, status_clearAll]
  rw [show (0xFFFF00C3#32 : Word) = 0xFFFF00C2#32 ||| 1#32 from rfl, h]
  rfl

/-- A decoded frame after all groups are cleared (FRAME, DECODE). -/
theorem clearAll_commitFrame (s : State) (f : FrameResult) :
    (s.clearAll.commitFrame f).setDone =
      { s.clearedWith 0x00000009#32 with frame := (s.commitFrame f).frame, outBuf := f.payload } := by
  have h : (s.clearAll.commitFrame f).setDone.status = (s.status &&& 0xFFFF00C2#32) ||| 0x00000009#32 := by
    simp only [State.setDone, State.commitFrame, State.clearAll_status, status_clearAll, status_flag_done]
    exact mask_keep_part s.status 0xFFFF00C2#32 8#32 1#32
  calc _ = { (s.clearAll.commitFrame f).setDone with
      status := (s.clearAll.commitFrame f).setDone.status } := rfl
    _ = _ := by rw [h]; rfl

/-- A decoded record (RECORD). -/
theorem clearRecord_commit (s : State) (t : RawTime) :
    (s.clearErr.clearRec.clearField.commitRecord t).setDone = { s with
      status := (s.status &&& 0xFFFF00CA#32) ||| 0x00000011#32
      error := {}
      record := (s.commitRecord t).record
      field := {} } := by
  have h : (s.clearErr.clearRec.clearField.commitRecord t).setDone.status =
      (s.status &&& 0xFFFF00CA#32) ||| 0x00000011#32 := by
    simp only [State.setDone, State.commitRecord, State.clearField_status, State.clearRec_status,
      State.clearErr_status, status_clearRecord, status_flag_done]
    exact mask_keep_part s.status 0xFFFF00CA#32 16#32 1#32
  calc _ = { (s.clearErr.clearRec.clearField.commitRecord t).setDone with
      status := (s.clearErr.clearRec.clearField.commitRecord t).setDone.status } := rfl
    _ = _ := by rw [h]; rfl

/-- A selected field (FIELD). -/
theorem clearField_commit (s : State) (f : FieldGroup) :
    (s.clearErr.clearField.commitField f).setDone = s.fieldEnd 0x00000021#32 {} f := by
  have h : (s.clearErr.clearField.commitField f).setDone.status =
      (s.status &&& 0xFFFF00DA#32) ||| 0x00000021#32 := by
    simp only [State.setDone, State.commitField, State.clearField_status,
      State.clearErr_status, status_clearField, status_flag_done]
    exact mask_keep_part s.status 0xFFFF00DA#32 32#32 1#32
  calc _ = { (s.clearErr.clearField.commitField f).setDone with
      status := (s.clearErr.clearField.commitField f).setDone.status } := rfl
    _ = _ := by rw [h]; rfl

/-- The core step of an illegal word. -/
theorem illegalWord_eq (s : State) (w : Word) : s.illegalWord w = { s with
    status := (s.status &&& 0xFFFF00FA#32) ||| 0x00000805#32
    error := { errA := w, errB := 0#32 } } := by
  simp only [State.illegalWord, State.setDone, State.raise, State.clearErr_status, statusClearErr_eq,
    status_raise_done]
  exact congrArg (fun st => ({ s with status := st, error := { errA := w, errB := 0#32 } } : State))
    (errStatus_keep 8#8 s.status 0xFFFF00FA#32)

/-- FIELD with a selector, by the outcome of its selection. -/
theorem fieldCommand_eq (s : State) (sel : Byte) : fieldCommand sel s =
    (fieldSelect s sel).settle s.clearErr.clearField State.commitField := by
  have h : fieldSelect s.clearErr.clearField sel = fieldSelect s sel := by
    refine fieldSelect_congr sel ?_ rfl rfl
    simp [statusClearErr_eq, clearFlag, flag, recValidBit, fieldValidBit]
  simp only [fieldCommand, h]

/-- RECORD, by the outcome of RecordDecode. -/
theorem execRecord_eq (s : State) : execRecord s =
    (recordDecode s).settle s.clearErr.clearRec.clearField State.commitRecord := by
  have h : recordDecode s.clearErr.clearRec.clearField = recordDecode s := by
    refine recordDecode_congr ?_ rfl rfl
    simp [statusClearErr_eq, clearFlag, flag, frameValidBit, fieldValidBit, recValidBit]
  simp only [execRecord, h]

/-- DECODE, by the outcome of FrameDecode (R107). -/
theorem execDecode_eq (s : State) : execDecode s =
    match frameDecode s with
    | .ok f =>
      if (s.clearAll.commitFrame f).frame.hdrKind = 0x04#32 then
        (recordDecode (s.clearAll.commitFrame f)).settle (s.clearAll.commitFrame f) State.commitRecord
      else .next (s.clearAll.commitFrame f).setDone
    | .raised e => .next (s.clearAll.raise e).setDone
    | .refused r => .refused r
    | .fault f => .fault f := by
  cases hf : frameDecode s <;> simp only [execDecode, frameDecode_clearAll, hf]

/-- CRC16, by the bytes it reads (R70). -/
theorem execCrc16_eq (s : State) : execCrc16 s =
    match s.inBuf.bytes 0 s.inLen.toNat with
    | none => .refused .unwrittenInput
    | some bs => .next { s.clearedWith 0x00000001#32 with frame := { crcCalc := (crc16 bs).setWidth 32 } } := by
  rw [← clearAll_done]
  cases hb : s.inBuf.bytes 0 s.inLen.toNat with
  | none => simp only [execCrc16, State.inBytes, State.inputLength, State.clearAll_inBuf, State.clearAll_inLen, hb]
  | some bs =>
    simp only [execCrc16, State.inBytes, State.inputLength, State.clearAll_inBuf, State.clearAll_inLen, hb]
    rfl

/-- XOR, by the bytes it reads (R76). -/
theorem execXor_eq (s : State) : execXor s =
    match s.inBuf.bytes 0 s.inLen.toNat with
    | none => .refused .unwrittenInput
    | some bs => .next { s.clearedWith 0x00000001#32 with outBuf := mask bs } := by
  rw [← clearAll_done]
  cases hb : s.inBuf.bytes 0 s.inLen.toNat with
  | none => simp only [execXor, State.inBytes, State.inputLength, State.clearAll_inBuf, State.clearAll_inLen, hb]
  | some bs =>
    simp only [execXor, State.inBytes, State.inputLength, State.clearAll_inBuf, State.clearAll_inLen, hb]
    rfl

/-- FRAME, by the outcome of FrameDecode. -/
theorem execFrame_eq (s : State) : execFrame s = (frameDecode s).settle s.clearAll State.commitFrame := by
  simp only [execFrame, frameDecode_clearAll]

/-- FRAME on an input FrameDecode raises an error for (R84, R110). -/
theorem execFrame_raised {s : State} {e : CmdError} (h : frameDecode s = .raised e) :
    execFrame s = .next (s.frameFailed (errStatus e.code) e.detailA e.detailB) := by
  rw [execFrame_eq, h, Attempt.settle, clearAll_raise]

/-- DECODE on an input FrameDecode raises an error for (R107, R110). -/
theorem execDecode_raised {s : State} {e : CmdError} (h : frameDecode s = .raised e) :
    execDecode s = .next (s.frameFailed (errStatus e.code) e.detailA e.detailB) := by
  simp only [execDecode_eq, h, clearAll_raise]

/-- ERR_CODE of the state a failed frame leaves is that of its STATUS fields. -/
@[simp] theorem frameFailed_errCode (s : State) (st a b : Word) :
    errCode (s.frameFailed st a b).status = errCode st := by
  simp only [State.frameFailed, State.clearedWith, errCode_or, errCode_and,
    show errCode 0xFFFF00C2#32 = 0x00#8 by decide, BitVec.and_zero, BitVec.zero_or]

end Sys2Proof.Machine
end

