-- ==== Sys2Proof/Laws/Bus.lean ====
section
/-! SUPPORT. The bus: what an address reaches, and what an access of each kind does (20_memory.md). -/
namespace Sys2Proof.Machine

/-- The address map on addresses as numbers, the block's base being 0 (R35). -/
theorem target_eq (addr : Word) : target addr =
    if addr.toNat < 0x100 then
      match regAt addr.toNat with
      | some r => .register r (decide (addr.toNat = r.offset))
      | none => .unmapped
    else if 0x00020000 ≤ addr.toNat ∧ addr.toNat < 0x00020000 + 65543 then .inBuf (addr.toNat - 0x00020000)
    else if 0x00040000 ≤ addr.toNat ∧ addr.toNat < 0x00060000 then .outBuf (addr.toNat - 0x00040000)
    else .unmapped := by
  have h : (addr - Config.gfdcBase).toNat = addr.toNat := by simp [Config.gfdcBase]
  unfold target
  rw [h]
  rfl

/-- Each of the first 0x6C bytes belongs to a register, at its offset when the address is 4-byte aligned (R15). -/
theorem regAt_lt : ∀ a : Nat, a < 0x6C → ∃ r, regAt a = some r ∧ (a = r.offset ↔ a % 4 = 0) := by
  have h : ∀ a : Fin 0x6C, (regAt a.1).any (fun r => decide (a.1 = r.offset) == decide (a.1 % 4 = 0)) = true := by
    decide +kernel
  intro a ha
  have := h ⟨a, ha⟩
  obtain ⟨r, hr, hd⟩ := Option.any_eq_true _ _ |>.1 this
  exact ⟨r, hr, by simpa using hd⟩

/-- The register of its own offset (R15). -/
theorem regAt_offset (r : Reg) : regAt r.offset = some r := by
  cases r <;> rfl

/-- The reserved range of the register window (R15). -/
theorem regAt_ge (a : Nat) (h : 0x6C ≤ a) : regAt a = none := by
  unfold regAt
  rw [List.find?_eq_none]
  intro r _
  have : r.offset + 4 ≤ 0x6C := by cases r <;> decide
  simp
  omega

theorem Reg.offset_lt (r : Reg) : r.offset < 0x6C := by cases r <;> decide

/-- An aligned register address. -/
theorem target_register (r : Reg) : target (BitVec.ofNat 32 r.offset) = .register r true := by
  have h := r.offset_lt
  have ht : (BitVec.ofNat 32 r.offset : Word).toNat = r.offset := by
    rw [BitVec.toNat_ofNat]; omega
  simp only [target_eq, ht, regAt_offset, decide_true]
  rw [if_pos (by omega)]

/-- An address in the register window. -/
theorem target_lt {addr : Word} (h : addr.toNat < 0x6C) :
    ∃ r, target addr = .register r (decide (addr.toNat % 4 = 0)) ∧ regAt addr.toNat = some r ∧
      (addr.toNat = r.offset ↔ addr.toNat % 4 = 0) := by
  obtain ⟨r, hr, ho⟩ := regAt_lt addr.toNat h
  refine ⟨r, ?_, hr, ho⟩
  rw [target_eq, if_pos (by omega), hr]
  simp [ho]

/-- An address that reaches nothing (R15, R35). -/
theorem target_unmapped {addr : Word}
    (h : (0x6C ≤ addr.toNat ∧ addr.toNat < 0x00020000) ∨
      (0x00020000 + 65543 ≤ addr.toNat ∧ addr.toNat < 0x00040000) ∨ 0x00060000 ≤ addr.toNat) :
    target addr = .unmapped := by
  rw [target_eq]
  split_ifs with h1 h2 h3
  · rw [regAt_ge _ (by omega)]
  · omega
  · omega
  · rfl

/-- The two buffer windows (R35). -/
theorem target_inBuf {i : Nat} (h : i < 65543) : target (BitVec.ofNat 32 (0x00020000 + i)) = .inBuf i := by
  have ht : (BitVec.ofNat 32 (0x00020000 + i) : Word).toNat = 0x00020000 + i := by
    rw [BitVec.toNat_ofNat]; omega
  rw [target_eq, ht, if_neg (by omega), if_pos (by omega), Nat.add_sub_cancel_left]

theorem target_outBuf {i : Nat} (h : i < 0x20000) : target (BitVec.ofNat 32 (0x00040000 + i)) = .outBuf i := by
  have ht : (BitVec.ofNat 32 (0x00040000 + i) : Word).toNat = 0x00040000 + i := by
    rw [BitVec.toNat_ofNat]; omega
  rw [target_eq, ht, if_neg (by omega), if_neg (by omega), if_pos (by omega), Nat.add_sub_cancel_left]

/-- A step with the host's next access (R11). -/
theorem step_cons {s : State} {a : HostAction} {rest : List HostAction} (h : s.pending = a :: rest) :
    step s = hostAct a { s with pending := rest } := by
  simp [step, hostStep, h]

/-- A write of CMD (R16). -/
theorem busWrite_cmd (s : State) (w : Word) : busWrite s 32 0x00000000#32 w = coreStep w { s with cmd := w } := rfl

/-- Every outcome of a write, with the access that leads to it (R16, R18, R36, R37, R118). -/
theorem busWrite_cases (s : State) (width : Nat) (addr data : Word) :
    (width = 32 ∧ target addr = .register .cmd true ∧
      busWrite s width addr data = coreStep data { s with cmd := data }) ∨
    (target addr = .register .inLen true ∧ data.toNat ≤ 65543 ∧
      busWrite s width addr data = .next { s with inLen := data }) ∨
    (∃ i, target addr = .inBuf i ∧ width = 8 ∧
      busWrite s width addr data = .next { s with inBuf := s.inBuf.write i (data.setWidth 8) }) ∨
    ∃ r, busWrite s width addr data = .refused r := by
  cases ht : target addr with
  | unmapped => exact .inr (.inr (.inr ⟨.unmapped, by simp [busWrite, ht]⟩))
  | outBuf i => exact .inr (.inr (.inr ⟨.readOnly, by simp [busWrite, ht]⟩))
  | inBuf i =>
    by_cases hw : width = 8
    · exact .inr (.inr (.inl ⟨i, rfl, hw, by simp [busWrite, ht, hw]⟩))
    · exact .inr (.inr (.inr ⟨.bufferAccess, by simp [busWrite, ht, hw]⟩))
  | register r al =>
    by_cases hw : width = 32 ∧ al = true
    · obtain ⟨hw, rfl⟩ := hw
      cases r
      case cmd => exact .inl ⟨hw, rfl, by simp [busWrite, ht, hw]⟩
      case inLen =>
        by_cases hd : data.toNat ≤ 65543
        · exact .inr (.inl ⟨rfl, hd, by simp [busWrite, ht, hw, Config.inCap, hd]⟩)
        · exact .inr (.inr (.inr ⟨.lengthAboveCap, by simp [busWrite, ht, hw, Config.inCap, hd]⟩))
      all_goals exact .inr (.inr (.inr ⟨.readOnly, by simp [busWrite, ht, hw]⟩))
    · exact .inr (.inr (.inr ⟨.registerAccess, by
        simp only [busWrite, ht]
        rw [if_neg hw]⟩))

/-- The only aligned address of CMD is its own (R15). -/
theorem target_cmd {addr : Word} (h : target addr = .register .cmd true) : addr = 0x00000000#32 := by
  have hlt : addr.toNat < 0x6C := by
    by_contra hn
    rw [target_eq] at h
    rw [regAt_ge _ (by omega)] at h
    split_ifs at h
  obtain ⟨r, ht, _, ho⟩ := target_lt hlt
  rw [h] at ht
  injection ht with h1 h2
  subst h1
  have : addr.toNat % 4 = 0 := by simpa using h2.symm
  have := ho.2 this
  exact BitVec.eq_of_toNat_eq (by simpa [Reg.offset] using this)

end Sys2Proof.Machine
end

