-- ==== Sys2Proof/Laws/Crc16.lean ====
section
/-! SUPPORT. Bit reversal and the steps of the CRC-16 (40_crc16.md R66). -/
namespace Sys2Proof.Machine

theorem reflect_getLsbD {n : Nat} (v : BitVec n) (i : Nat) (h : i < n) :
    (reflect v).getLsbD i = v.getLsbD (n - 1 - i) := by
  rw [reflect, BitVec.getLsbD_reverse, BitVec.getMsbD_eq_getLsbD]
  simp [h]

theorem reflect_xor {n : Nat} (a b : BitVec n) : reflect (a ^^^ b) = reflect a ^^^ reflect b := by
  apply BitVec.eq_of_getLsbD_eq
  intro i hi
  rw [BitVec.getLsbD_xor, reflect_getLsbD _ _ hi, reflect_getLsbD _ _ hi, reflect_getLsbD _ _ hi,
    BitVec.getLsbD_xor]

theorem reflect_reflect {n : Nat} (v : BitVec n) : reflect (reflect v) = v := by
  simp [reflect]

/-- A right shift of the reversed register is the reversal of a left shift. -/
theorem reflect_ushiftRight (c : Crc) : reflect c >>> 1 = reflect (c <<< 1) := by
  apply BitVec.eq_of_getLsbD_eq
  intro i hi
  rw [BitVec.getLsbD_ushiftRight]
  by_cases h : i = 15
  · subst h; rw [reflect_getLsbD _ _ hi]; simp
  · rw [reflect_getLsbD _ _ (by omega), reflect_getLsbD _ _ hi]
    simp
    rw [show 15 - (1 + i) = 15 - i - 1 by omega]
    simp
    omega

/-- Bit 0 after a step is bit 15 before it. -/
theorem crcShift_getLsbD_zero (c : Crc) : (crcShift c).getLsbD 0 = c.getLsbD 15 := by
  unfold crcShift
  cases h : c.getLsbD 15 <;> simp [crcPoly]

/-- A step loses nothing. -/
theorem crcShift_injective : Function.Injective crcShift := by
  intro c d h
  have h15 : c.getLsbD 15 = d.getLsbD 15 := by rw [← crcShift_getLsbD_zero, h, crcShift_getLsbD_zero]
  have hs : c <<< 1 = d <<< 1 := by
    unfold crcShift at h
    rw [h15] at h
    split_ifs at h
    · exact BitVec.xor_left_inj _ |>.1 h
    · exact h
  apply BitVec.eq_of_getLsbD_eq
  intro i hi
  by_cases hl : i = 15
  · rw [hl, h15]
  · have := congrArg (fun v => BitVec.getLsbD v (i + 1)) hs
    simpa [show i + 1 < 16 by omega, BitVec.getLsbD_eq_getElem hi] using this

/-- A byte's contribution loses nothing of the register. -/
theorem crcByte_injective (b : Byte) : Function.Injective (fun c => crcByte c b) := fun _ _ h =>
  BitVec.xor_left_inj _ |>.1 ((crcShift_injective.iterate 8) h)

/-- The CRC of a sequence with one more byte at its end, before the final reversal. -/
theorem crcByte_foldl_concat (c : Crc) (s : List Byte) (b : Byte) :
    (s ++ [b]).foldl crcByte c = crcByte (s.foldl crcByte c) b := by
  simp

end Sys2Proof.Machine
end

