-- ==== Sys2Proof/Laws/Exec.lean ====
section
/-! SUPPORT. The shapes of a command: the seven plain commands and FIELD with a selector. -/
namespace Sys2Proof.Machine

/-- Every command is one of the seven plain ones or FIELD with some selector; a case split over commands
has eight cases. -/
theorem exec_shape (i : Instr) :
    i = .nop ∨ i = .crc16 ∨ i = .xor ∨ i = .frame ∨ i = .record ∨ i = .decode ∨ i = .clear ∨
    ∃ sel, ∀ s, exec i s = fieldCommand sel s := by
  cases i
  case nop => simp
  case crc16 => simp
  case xor => simp
  case frame => simp
  case record => simp
  case field sel => exact .inr (.inr (.inr (.inr (.inr (.inr (.inr ⟨sel, fun _ => rfl⟩))))))
  case decode => simp
  case clear => simp
  case fieldSerial => exact .inr (.inr (.inr (.inr (.inr (.inr (.inr ⟨0x00#8, fun _ => rfl⟩))))))
  case fieldRsv10 => exact .inr (.inr (.inr (.inr (.inr (.inr (.inr ⟨0x01#8, fun _ => rfl⟩))))))
  case fieldInverterId => exact .inr (.inr (.inr (.inr (.inr (.inr (.inr ⟨0x02#8, fun _ => rfl⟩))))))
  case fieldRsv40 => exact .inr (.inr (.inr (.inr (.inr (.inr (.inr ⟨0x03#8, fun _ => rfl⟩))))))
  case fieldTsYear => exact .inr (.inr (.inr (.inr (.inr (.inr (.inr ⟨0x04#8, fun _ => rfl⟩))))))
  case fieldTsMonth => exact .inr (.inr (.inr (.inr (.inr (.inr (.inr ⟨0x05#8, fun _ => rfl⟩))))))
  case fieldTsDay => exact .inr (.inr (.inr (.inr (.inr (.inr (.inr ⟨0x06#8, fun _ => rfl⟩))))))
  case fieldTsHour => exact .inr (.inr (.inr (.inr (.inr (.inr (.inr ⟨0x07#8, fun _ => rfl⟩))))))
  case fieldTsMinute => exact .inr (.inr (.inr (.inr (.inr (.inr (.inr ⟨0x08#8, fun _ => rfl⟩))))))
  case fieldTsSecond => exact .inr (.inr (.inr (.inr (.inr (.inr (.inr ⟨0x09#8, fun _ => rfl⟩))))))
  case fieldRsv66 => exact .inr (.inr (.inr (.inr (.inr (.inr (.inr ⟨0x0A#8, fun _ => rfl⟩))))))
  case fieldStatus => exact .inr (.inr (.inr (.inr (.inr (.inr (.inr ⟨0x0B#8, fun _ => rfl⟩))))))
  case fieldDcInputPower => exact .inr (.inr (.inr (.inr (.inr (.inr (.inr ⟨0x0C#8, fun _ => rfl⟩))))))
  case fieldPv1Voltage => exact .inr (.inr (.inr (.inr (.inr (.inr (.inr ⟨0x0D#8, fun _ => rfl⟩))))))
  case fieldPv1Current => exact .inr (.inr (.inr (.inr (.inr (.inr (.inr ⟨0x0E#8, fun _ => rfl⟩))))))
  case fieldPv1Power => exact .inr (.inr (.inr (.inr (.inr (.inr (.inr ⟨0x0F#8, fun _ => rfl⟩))))))
  case fieldPv2Voltage => exact .inr (.inr (.inr (.inr (.inr (.inr (.inr ⟨0x10#8, fun _ => rfl⟩))))))
  case fieldPv2Current => exact .inr (.inr (.inr (.inr (.inr (.inr (.inr ⟨0x11#8, fun _ => rfl⟩))))))
  case fieldPv2Power => exact .inr (.inr (.inr (.inr (.inr (.inr (.inr ⟨0x12#8, fun _ => rfl⟩))))))
  case fieldPvOutputPower => exact .inr (.inr (.inr (.inr (.inr (.inr (.inr ⟨0x13#8, fun _ => rfl⟩))))))
  case fieldFrequency => exact .inr (.inr (.inr (.inr (.inr (.inr (.inr ⟨0x14#8, fun _ => rfl⟩))))))
  case fieldGridVoltage => exact .inr (.inr (.inr (.inr (.inr (.inr (.inr ⟨0x15#8, fun _ => rfl⟩))))))
  case fieldRsv101 => exact .inr (.inr (.inr (.inr (.inr (.inr (.inr ⟨0x16#8, fun _ => rfl⟩))))))
  case fieldAcActivePower => exact .inr (.inr (.inr (.inr (.inr (.inr (.inr ⟨0x17#8, fun _ => rfl⟩))))))
  case fieldAcFrequency => exact .inr (.inr (.inr (.inr (.inr (.inr (.inr ⟨0x18#8, fun _ => rfl⟩))))))
  case fieldAc1Voltage => exact .inr (.inr (.inr (.inr (.inr (.inr (.inr ⟨0x19#8, fun _ => rfl⟩))))))
  case fieldAc1Current => exact .inr (.inr (.inr (.inr (.inr (.inr (.inr ⟨0x1A#8, fun _ => rfl⟩))))))
  case fieldAc1Power => exact .inr (.inr (.inr (.inr (.inr (.inr (.inr ⟨0x1B#8, fun _ => rfl⟩))))))
  case fieldRsv131 => exact .inr (.inr (.inr (.inr (.inr (.inr (.inr ⟨0x1C#8, fun _ => rfl⟩))))))
  case fieldEnergyDaily => exact .inr (.inr (.inr (.inr (.inr (.inr (.inr ⟨0x1D#8, fun _ => rfl⟩))))))
  case fieldRsv173 => exact .inr (.inr (.inr (.inr (.inr (.inr (.inr ⟨0x1E#8, fun _ => rfl⟩))))))
  case fieldEnergyTotal => exact .inr (.inr (.inr (.inr (.inr (.inr (.inr ⟨0x1F#8, fun _ => rfl⟩))))))
  case fieldRsv181 => exact .inr (.inr (.inr (.inr (.inr (.inr (.inr ⟨0x20#8, fun _ => rfl⟩))))))
  case fieldBatDischargePower => exact .inr (.inr (.inr (.inr (.inr (.inr (.inr ⟨0x21#8, fun _ => rfl⟩))))))
  case fieldBatChargePower => exact .inr (.inr (.inr (.inr (.inr (.inr (.inr ⟨0x22#8, fun _ => rfl⟩))))))
  case fieldBatVoltage => exact .inr (.inr (.inr (.inr (.inr (.inr (.inr ⟨0x23#8, fun _ => rfl⟩))))))
  case fieldSoc => exact .inr (.inr (.inr (.inr (.inr (.inr (.inr ⟨0x24#8, fun _ => rfl⟩))))))
  case fieldLoadPower => exact .inr (.inr (.inr (.inr (.inr (.inr (.inr ⟨0x25#8, fun _ => rfl⟩))))))
  case fieldRsv359 => exact .inr (.inr (.inr (.inr (.inr (.inr (.inr ⟨0x26#8, fun _ => rfl⟩))))))
  case fieldBatTemperature => exact .inr (.inr (.inr (.inr (.inr (.inr (.inr ⟨0x27#8, fun _ => rfl⟩))))))
  case fieldExtra => exact .inr (.inr (.inr (.inr (.inr (.inr (.inr ⟨0x28#8, fun _ => rfl⟩))))))

/-- Each named row is FIELD with its selector (R60, R103). -/
theorem exec_fieldRow : ∀ r ∈ allFieldRows, ∀ i ∈ [r.cmd, Instr.field r.sel], ∀ s,
    exec i s = fieldCommand r.sel s := by
  intro r hr i hi s
  simp only [List.mem_cons, List.not_mem_nil, or_false] at hi
  rcases hi with rfl | rfl
  · simp only [allFieldRows, numericRows0, numericRows1, numericRows2, byteRows, List.cons_append,
      List.nil_append, List.mem_cons, List.not_mem_nil, or_false] at hr
    rcases hr with rfl | rfl | rfl | rfl | rfl | rfl | rfl | rfl | rfl | rfl | rfl | rfl | rfl | rfl | rfl | rfl | rfl | rfl | rfl | rfl | rfl | rfl | rfl | rfl | rfl | rfl | rfl | rfl | rfl | rfl | rfl | rfl | rfl | rfl | rfl | rfl | rfl | rfl | rfl | rfl | rfl <;> rfl
  · rfl

/-- Each row of the statements is the row of the layout its selector has (R60). -/
theorem layout_fieldRow (e : Nat) : ∀ r ∈ allFieldRows, ∃ row, layout e r.sel = some row ∧ row.off = r.off ∧
    (r.sel = 0x28#8 → row.width = e ∧ row.type = .bytes) ∧ (r.sel ≠ 0x28#8 → row.width = r.width) := by
  intro r hr
  simp only [allFieldRows, numericRows0, numericRows1, numericRows2, byteRows, List.cons_append,
    List.nil_append, List.mem_cons, List.not_mem_nil, or_false] at hr
  rcases hr with rfl | rfl | rfl | rfl | rfl | rfl | rfl | rfl | rfl | rfl | rfl | rfl | rfl | rfl | rfl | rfl | rfl | rfl | rfl | rfl | rfl | rfl | rfl | rfl | rfl | rfl | rfl | rfl | rfl | rfl | rfl | rfl | rfl | rfl | rfl | rfl | rfl | rfl | rfl | rfl | rfl <;>
    exact ⟨_, rfl, rfl, fun h => by first | exact absurd h (by decide) | exact ⟨rfl, rfl⟩,
      fun h => by first | rfl | exact absurd rfl h⟩

end Sys2Proof.Machine
end

