-- ==== Sys2Proof/Laws/PerInstr.lean ====
section
/-! SUPPORT. One law per command about its word (30_encoding.md R53 to R56): the reserved bits are 0, OP is one of
the eight, and ARG is 0 unless OP is FIELD. -/
namespace Sys2Proof.Laws.EncodedFields
open Sys2Proof

/-- The word of `i` has the fields of a legal command word (R53, R54, R56). -/
def Statement (i : Instr) : Prop :=
  highField (encode i) = 0#16 ∧ (opField (encode i)).toNat ≤ 7 ∧
    (opField (encode i) ≠ 0x05#8 → argField (encode i) = 0#8)

theorem of_field (sel : Byte) : highField (fieldWord sel) = 0#16 ∧ (opField (fieldWord sel)).toNat ≤ 7 ∧
    (opField (fieldWord sel) ≠ 0x05#8 → argField (fieldWord sel) = 0#8) := by
  refine ⟨highField_commandWord _ _, ?_, fun h => absurd (opField_commandWord _ _) h⟩
  rw [fieldWord, opField_commandWord]
  decide

theorem of_plain (op : Byte) (h : op.toNat ≤ 7) :
    highField (commandWord op 0#8) = 0#16 ∧ (opField (commandWord op 0#8)).toNat ≤ 7 ∧
    (opField (commandWord op 0#8) ≠ 0x05#8 → argField (commandWord op 0#8) = 0#8) := by
  refine ⟨highField_commandWord _ _, ?_, fun _ => argField_commandWord _ _⟩
  rwa [opField_commandWord]

theorem nop : Statement .nop := of_plain 0x00#8 (by decide)
theorem crc16 : Statement .crc16 := of_plain 0x01#8 (by decide)
theorem xor : Statement .xor := of_plain 0x02#8 (by decide)
theorem frame : Statement .frame := of_plain 0x03#8 (by decide)
theorem record : Statement .record := of_plain 0x04#8 (by decide)
theorem field (sel : Byte) : Statement (.field sel) := of_field sel
theorem decode : Statement .decode := of_plain 0x06#8 (by decide)
theorem clear : Statement .clear := of_plain 0x07#8 (by decide)
theorem fieldSerial : Statement .fieldSerial := of_field 0x00#8
theorem fieldRsv10 : Statement .fieldRsv10 := of_field 0x01#8
theorem fieldInverterId : Statement .fieldInverterId := of_field 0x02#8
theorem fieldRsv40 : Statement .fieldRsv40 := of_field 0x03#8
theorem fieldTsYear : Statement .fieldTsYear := of_field 0x04#8
theorem fieldTsMonth : Statement .fieldTsMonth := of_field 0x05#8
theorem fieldTsDay : Statement .fieldTsDay := of_field 0x06#8
theorem fieldTsHour : Statement .fieldTsHour := of_field 0x07#8
theorem fieldTsMinute : Statement .fieldTsMinute := of_field 0x08#8
theorem fieldTsSecond : Statement .fieldTsSecond := of_field 0x09#8
theorem fieldRsv66 : Statement .fieldRsv66 := of_field 0x0A#8
theorem fieldStatus : Statement .fieldStatus := of_field 0x0B#8
theorem fieldDcInputPower : Statement .fieldDcInputPower := of_field 0x0C#8
theorem fieldPv1Voltage : Statement .fieldPv1Voltage := of_field 0x0D#8
theorem fieldPv1Current : Statement .fieldPv1Current := of_field 0x0E#8
theorem fieldPv1Power : Statement .fieldPv1Power := of_field 0x0F#8
theorem fieldPv2Voltage : Statement .fieldPv2Voltage := of_field 0x10#8
theorem fieldPv2Current : Statement .fieldPv2Current := of_field 0x11#8
theorem fieldPv2Power : Statement .fieldPv2Power := of_field 0x12#8
theorem fieldPvOutputPower : Statement .fieldPvOutputPower := of_field 0x13#8
theorem fieldFrequency : Statement .fieldFrequency := of_field 0x14#8
theorem fieldGridVoltage : Statement .fieldGridVoltage := of_field 0x15#8
theorem fieldRsv101 : Statement .fieldRsv101 := of_field 0x16#8
theorem fieldAcActivePower : Statement .fieldAcActivePower := of_field 0x17#8
theorem fieldAcFrequency : Statement .fieldAcFrequency := of_field 0x18#8
theorem fieldAc1Voltage : Statement .fieldAc1Voltage := of_field 0x19#8
theorem fieldAc1Current : Statement .fieldAc1Current := of_field 0x1A#8
theorem fieldAc1Power : Statement .fieldAc1Power := of_field 0x1B#8
theorem fieldRsv131 : Statement .fieldRsv131 := of_field 0x1C#8
theorem fieldEnergyDaily : Statement .fieldEnergyDaily := of_field 0x1D#8
theorem fieldRsv173 : Statement .fieldRsv173 := of_field 0x1E#8
theorem fieldEnergyTotal : Statement .fieldEnergyTotal := of_field 0x1F#8
theorem fieldRsv181 : Statement .fieldRsv181 := of_field 0x20#8
theorem fieldBatDischargePower : Statement .fieldBatDischargePower := of_field 0x21#8
theorem fieldBatChargePower : Statement .fieldBatChargePower := of_field 0x22#8
theorem fieldBatVoltage : Statement .fieldBatVoltage := of_field 0x23#8
theorem fieldSoc : Statement .fieldSoc := of_field 0x24#8
theorem fieldLoadPower : Statement .fieldLoadPower := of_field 0x25#8
theorem fieldRsv359 : Statement .fieldRsv359 := of_field 0x26#8
theorem fieldBatTemperature : Statement .fieldBatTemperature := of_field 0x27#8
theorem fieldExtra : Statement .fieldExtra := of_field 0x28#8

end Sys2Proof.Laws.EncodedFields
end

