-- ==== Sys2Proof/Machine/HostProgram.lean ====
section
/-! DEFINITION. The host-program notation of 30_encoding.md R65: each line as the bus accesses it stands for. -/
namespace Sys2Proof.Machine

/-- A line of a host program (R65). -/
inductive HostLine where
  /-- `wrin i, b0, b1, ...` -/
  | wrin (i : Nat) (bytes : List Byte)
  /-- `wr NAME, v` -/
  | wr (r : Reg) (v : Word)
  /-- `rd NAME` -/
  | rd (r : Reg)
  /-- `rdout i` -/
  | rdout (i : Nat)
  /-- `cmd MNEMONIC` and `cmd FIELD, SELNAME` -/
  | cmd (i : Instr)
  /-- `setlen v` -/
  | setlen (v : Word)
  deriving DecidableEq, Repr

/-- The bus address of window offset `off`. -/
def busAddr (off : Nat) : Word := Config.gfdcBase + BitVec.ofNat 32 off

/-- The byte writes of `wrin` (R65). -/
def wrinActions (i : Nat) : List Byte → List HostAction
  | [] => []
  | b :: bs => .write 8 (busAddr (Config.inBase + i)) (b.setWidth 32) :: wrinActions (i + 1) bs

/-- The accesses of a line (R65). -/
def HostLine.actions : HostLine → List HostAction
  | .wrin i bytes => wrinActions i bytes
  | .wr r v => [.write 32 (busAddr r.offset) v]
  | .rd r => [.read 32 (busAddr r.offset)]
  | .rdout i => [.read 8 (busAddr (Config.outBase + i))]
  | .cmd i => [.write 32 (busAddr Reg.cmd.offset) (encode i)]
  | .setlen v => [.write 32 (busAddr Reg.inLen.offset) v]

/-- The state in which the host is about to perform the program, in program order (R47). -/
def State.withProgram (s : State) (p : List HostLine) : State :=
  { s with pending := p.flatMap HostLine.actions }

end Sys2Proof.Machine
end

