-- ==== Sys2Proof/Tests/Slice0.lean ====
section
/-! SUPPORT. The model's own tests. Expected values are those of spec/95_test_vectors.md (its rows are named C, X,
F, RD, T, FD, K and Z), of the encodings of 30_encoding.md R53, R54, R60, or hand calculation. The theorems named
witness_... show a state and operands that meet the hypotheses of a statement of Certificates/Slice0. -/
namespace Sys2Proof.Tests
open Sys2Proof Sys2Proof.Machine

-- One theorem after another: elaborating these at once starts more threads than the check's memory allows.
set_option Elab.async false

/-! ## Helpers -/

/-- IN_BUF holding `bs` from index `i` on. -/
def cells (i : Nat) : List Byte → Memory
  | [] => []
  | b :: bs => (i, b) :: cells (i + 1) bs

/-- The reset state with the input `bs` written and IN_LEN its length. -/
def loaded (bs : List Byte) : State :=
  { State.reset with inLen := BitVec.ofNat 32 bs.length, inBuf := cells 0 bs }

/-- A written cell reads as its byte. -/
theorem cells_read (bs : List Byte) (i j : Nat) : (cells i bs).read (i + j) = bs[j]? := by
  induction bs generalizing i j with
  | nil => rfl
  | cons b bs ih =>
    cases j with
    | zero => simp [cells, Memory.read]
    | succ j =>
      have := ih (i + 1) j
      simpa [cells, Memory.read, Nat.add_assoc, Nat.add_comm 1 j] using this

theorem loaded_inputIs (bs : List Byte) (h : bs.length < 4294967296) : (loaded bs).inputIs bs :=
  ⟨by simp [loaded]; omega, fun i _ => by simpa [loaded] using cells_read bs 0 i⟩

/-- The reset state with one host access pending. -/
def withAccess (a : HostAction) : State := { State.reset with pending := [a] }

/-- What `f` says of the next state, false where there is none. -/
def nextIs (x : Host.Outcome State Fault Refusal) (f : State → Bool) : Bool :=
  match x with
  | .next t => f t
  | _ => false

/-- The step is refused for this reason. -/
def refusedWith (x : Host.Outcome State Fault Refusal) (r : Refusal) : Bool :=
  match x with
  | .refused r' => r' == r
  | _ => false

/-- `n` zero bytes. -/
def zeros (n : Nat) : List Byte := List.replicate n 0x00#8

/-- The empty-payload Ping frame of row F1. -/
def ping : List Byte := [0x00#8, 0x01#8, 0x00#8, 0x06#8, 0x00#8, 0x02#8, 0x01#8, 0x16#8, 0x55#8, 0xF9#8]

/-- Bytes 0 to 168 of the payload of data frame D. -/
def payloadD0 : List Byte :=
  [0x41#8, 0x42#8, 0x43#8, 0x31#8, 0x32#8, 0x33#8, 0x34#8, 0x35#8, 0x36#8, 0x37#8] ++ zeros 20 ++
  [0x49#8, 0x4E#8, 0x56#8, 0x30#8, 0x30#8, 0x30#8, 0x30#8, 0x30#8, 0x30#8, 0x31#8] ++ zeros 20 ++
  [0x18#8, 0x03#8, 0x0F#8, 0x0A#8, 0x1E#8, 0x00#8] ++ zeros 6 ++ [0x01#8] ++ [0x00#8, 0x00#8, 0x30#8, 0x39#8] ++
  [0x0B#8, 0xB8#8, 0x00#8, 0x32#8, 0x00#8, 0x00#8, 0x3A#8, 0x98#8] ++ [0x0B#8, 0x54#8, 0x00#8, 0x30#8, 0x00#8, 0x00#8, 0x36#8, 0x60#8] ++
  [0x00#8, 0x00#8, 0x38#8, 0xA4#8, 0x13#8, 0x89#8, 0x08#8, 0xFD#8] ++ zeros 16 ++ [0x00#8, 0x00#8, 0x05#8, 0x78#8, 0x13#8, 0x87#8] ++
  [0x08#8, 0xFC#8, 0x00#8, 0x3C#8, 0x00#8, 0x00#8, 0x35#8, 0xE8#8] ++ zeros 38

/-- The payload of data frame D. -/
def payloadD : List Byte :=
  payloadD0 ++ [0x00#8, 0x00#8, 0x00#8, 0x55#8] ++ zeros 4 ++ [0x00#8, 0x01#8, 0xE2#8, 0x40#8] ++ zeros 162 ++
  zeros 4 ++ [0x00#8, 0x00#8, 0x09#8, 0xC4#8, 0x02#8, 0x00#8, 0x19#8, 0x64#8] ++ [0x00#8, 0x00#8, 0x23#8, 0x28#8] ++ zeros 48 ++ [0x00#8, 0xFD#8]

/-- Data frame D on the wire. -/
def frameD : List Byte :=
  wireBody 0x00#8 0x05#8 0x00#8 0x06#8 0x01#8 0x9B#8 0x01#8 0x04#8 (mask payloadD) ++ [0xBC#8, 0x4B#8]

/-- The state FRAME of data frame D ends in (row RD2), its input aside. -/
def framedD : State :=
  { State.reset with
    status := 0x00000009#32
    frame := { crcCalc := 0xBC4B#32, crcRx := 0xBC4B#32, hdrId := 5#32, hdrProto := 6#32, hdrDlen := 411#32,
               hdrUnit := 1#32, hdrKind := 4#32, kindClass := 2#32 }
    outBuf := payloadD }

/-- The state DECODE of data frame D ends in (row RD1), its input aside. -/
def decodedD : State :=
  { framedD with
    status := 0x00000019#32
    record := { extraLen := 0#32, tsUnixLo := 0x65F42328#32, tsUnixHi := 0#32, tsDate := 0x07E8030F#32,
                tsTime := 0x000A1E00#32 } }

/-- `framedD` with other date and time bytes. -/
def framedAt (y mo d h mi s : Byte) : State :=
  { framedD with outBuf := payloadD.take 60 ++ [y, mo, d, h, mi, s] ++ payloadD.drop 66 }

/-! ## Well-formed terms -/

/-- The one check: the generic FIELD row keeps no selector of a named row. -/
theorem test_wellFormed_refuses :
    (Instr.field 0x00#8).wellFormed = false ∧ (Instr.field 0x28#8).wellFormed = false := by decide

theorem test_wellFormed_accepts :
    (Instr.field 0x29#8).wellFormed = true ∧ (Instr.field 0xFF#8).wellFormed = true ∧
    Instr.fieldExtra.wellFormed = true := by decide

/-! ## Decoding: words written out from R53, R54 and R60 -/

/-- w[31:16] = 0, ARG = w[15:8] = 0, OP = w[7:0]. -/
theorem test_decode_plain_words :
    decode 0b0000000000000000_00000000_00000000#32 = .ok .nop ∧
    decode 0b0000000000000000_00000000_00000001#32 = .ok .crc16 ∧
    decode 0b0000000000000000_00000000_00000010#32 = .ok .xor ∧
    decode 0b0000000000000000_00000000_00000011#32 = .ok .frame ∧
    decode 0b0000000000000000_00000000_00000100#32 = .ok .record ∧
    decode 0b0000000000000000_00000000_00000110#32 = .ok .decode ∧
    decode 0b0000000000000000_00000000_00000111#32 = .ok .clear := by decide

/-- ARG = w[15:8] is the selector of R60, OP = w[7:0] = 0x05. -/
theorem test_decode_field_words_0 :
    decode 0b0000000000000000_00000000_00000101#32 = .ok .fieldSerial ∧
    decode 0b0000000000000000_00000001_00000101#32 = .ok .fieldRsv10 ∧
    decode 0b0000000000000000_00000010_00000101#32 = .ok .fieldInverterId ∧
    decode 0b0000000000000000_00000011_00000101#32 = .ok .fieldRsv40 ∧
    decode 0b0000000000000000_00000100_00000101#32 = .ok .fieldTsYear ∧
    decode 0b0000000000000000_00000101_00000101#32 = .ok .fieldTsMonth ∧
    decode 0b0000000000000000_00000110_00000101#32 = .ok .fieldTsDay ∧
    decode 0b0000000000000000_00000111_00000101#32 = .ok .fieldTsHour ∧
    decode 0b0000000000000000_00001000_00000101#32 = .ok .fieldTsMinute ∧
    decode 0b0000000000000000_00001001_00000101#32 = .ok .fieldTsSecond ∧
    decode 0b0000000000000000_00001010_00000101#32 = .ok .fieldRsv66 := by decide

/-- ARG = w[15:8] is the selector of R60, OP = w[7:0] = 0x05. -/
theorem test_decode_field_words_1 :
    decode 0b0000000000000000_00001011_00000101#32 = .ok .fieldStatus ∧
    decode 0b0000000000000000_00001100_00000101#32 = .ok .fieldDcInputPower ∧
    decode 0b0000000000000000_00001101_00000101#32 = .ok .fieldPv1Voltage ∧
    decode 0b0000000000000000_00001110_00000101#32 = .ok .fieldPv1Current ∧
    decode 0b0000000000000000_00001111_00000101#32 = .ok .fieldPv1Power ∧
    decode 0b0000000000000000_00010000_00000101#32 = .ok .fieldPv2Voltage ∧
    decode 0b0000000000000000_00010001_00000101#32 = .ok .fieldPv2Current ∧
    decode 0b0000000000000000_00010010_00000101#32 = .ok .fieldPv2Power ∧
    decode 0b0000000000000000_00010011_00000101#32 = .ok .fieldPvOutputPower ∧
    decode 0b0000000000000000_00010100_00000101#32 = .ok .fieldFrequency ∧
    decode 0b0000000000000000_00010101_00000101#32 = .ok .fieldGridVoltage := by decide

/-- ARG = w[15:8] is the selector of R60, OP = w[7:0] = 0x05. -/
theorem test_decode_field_words_2 :
    decode 0b0000000000000000_00010110_00000101#32 = .ok .fieldRsv101 ∧
    decode 0b0000000000000000_00010111_00000101#32 = .ok .fieldAcActivePower ∧
    decode 0b0000000000000000_00011000_00000101#32 = .ok .fieldAcFrequency ∧
    decode 0b0000000000000000_00011001_00000101#32 = .ok .fieldAc1Voltage ∧
    decode 0b0000000000000000_00011010_00000101#32 = .ok .fieldAc1Current ∧
    decode 0b0000000000000000_00011011_00000101#32 = .ok .fieldAc1Power ∧
    decode 0b0000000000000000_00011100_00000101#32 = .ok .fieldRsv131 ∧
    decode 0b0000000000000000_00011101_00000101#32 = .ok .fieldEnergyDaily ∧
    decode 0b0000000000000000_00011110_00000101#32 = .ok .fieldRsv173 ∧
    decode 0b0000000000000000_00011111_00000101#32 = .ok .fieldEnergyTotal ∧
    decode 0b0000000000000000_00100000_00000101#32 = .ok .fieldRsv181 := by decide

/-- ARG = w[15:8] is the selector of R60, OP = w[7:0] = 0x05. -/
theorem test_decode_field_words_3 :
    decode 0b0000000000000000_00100001_00000101#32 = .ok .fieldBatDischargePower ∧
    decode 0b0000000000000000_00100010_00000101#32 = .ok .fieldBatChargePower ∧
    decode 0b0000000000000000_00100011_00000101#32 = .ok .fieldBatVoltage ∧
    decode 0b0000000000000000_00100100_00000101#32 = .ok .fieldSoc ∧
    decode 0b0000000000000000_00100101_00000101#32 = .ok .fieldLoadPower ∧
    decode 0b0000000000000000_00100110_00000101#32 = .ok .fieldRsv359 ∧
    decode 0b0000000000000000_00100111_00000101#32 = .ok .fieldBatTemperature ∧
    decode 0b0000000000000000_00101000_00000101#32 = .ok .fieldExtra := by decide

/-- Selectors 0x29 and 0xFF are the generic row. -/
theorem test_decode_field_generic :
    decode 0b0000000000000000_00101001_00000101#32 = .ok (.field 0x29#8) ∧
    decode 0b0000000000000000_11111111_00000101#32 = .ok (.field 0xFF#8) := by decide

/-- The words of rows K3 to K9 encode no command, each for its reason. -/
theorem test_decode_rejects :
    decode 0x00000008#32 = .error (.unknownOp 0x08#8) ∧ decode 0x000000FF#32 = .error (.unknownOp 0xFF#8) ∧
    decode 0x00000100#32 = .error (.argNotZero 0x00#8 0x01#8) ∧
    decode 0x00000103#32 = .error (.argNotZero 0x03#8 0x01#8) ∧
    decode 0x00010000#32 = .error (.reservedBits 0x0001#16) ∧
    decode 0x80000003#32 = .error (.reservedBits 0x8000#16) ∧
    decode 0xFFFFFFFF#32 = .error (.reservedBits 0xFFFF#16) := by decide

theorem test_decodeTableWord :
    decodeTableWord 32 0x00000003 = some .frame ∧ decodeTableWord 32 0x00002405 = some .fieldSoc ∧
    decodeTableWord 32 0x00000008 = none := by decide

/-! ## Commands -/

/-- K1, K2: NOP sets DONE and keeps an error. -/
theorem test_nop :
    nextIs (exec .nop State.reset) (fun t => t == { State.reset with status := 1#32 }) = true ∧
    nextIs (exec .nop { State.reset with status := 0x00000205#32, error := { errA := 0x55F8#32, errB := 0x55F9#32 } })
      (fun t => t.status == 0x00000205#32 && t.error == { errA := 0x55F8#32, errB := 0x55F9#32 }) = true := by
  decide

/-- K10, a step of CLEAR from the state of RD1. -/
theorem test_clear :
    nextIs (exec .clear decodedD) (fun t => t == { State.reset with status := 1#32 }) = true := by
  decide +kernel

/-- S1, C1, C6. -/
theorem test_crc16 :
    nextIs (exec .crc16 (loaded [0x31#8, 0x32#8, 0x33#8, 0x34#8, 0x35#8, 0x36#8, 0x37#8, 0x38#8, 0x39#8]))
      (fun t => t.frame == { crcCalc := 0x4B37#32 } && t.status == 1#32) = true ∧
    nextIs (exec .crc16 (loaded [])) (fun t => t.frame.crcCalc == 0xFFFF#32) = true ∧
    nextIs (exec .crc16 (loaded [0x41#8])) (fun t => t.frame.crcCalc == 0x707F#32) = true := by
  decide +kernel

/-- C12 by the two other forms of the CRC. -/
theorem test_crc16_forms :
    crc16Lsb (ping.take 8) = 0x55F9#16 ∧ crc16Table (ping.take 8) = 0x55F9#16 := by decide +kernel

/-- X3, X5. -/
theorem test_xor :
    nextIs (exec .xor (loaded (zeros 8))) (fun t => t.outBuf == [0x47#8, 0x72#8, 0x6F#8, 0x77#8, 0x61#8, 0x74#8, 0x74#8, 0x47#8] &&
      t.readReg .outLen == 8#32 && t.status == 1#32) = true ∧
    nextIs (exec .xor (loaded [0x01#8, 0x02#8, 0x03#8])) (fun t => t.outBuf == [0x46#8, 0x70#8, 0x6C#8]) = true := by
  decide +kernel

/-- F2: header, class, checksums and payload. -/
theorem test_frame_decodes :
    nextIs (exec .frame (loaded [0x00#8, 0x01#8, 0x00#8, 0x06#8, 0x00#8, 0x05#8, 0x01#8, 0x16#8, 0x46#8, 0x70#8, 0x6C#8, 0xEE#8, 0x2A#8]))
      (fun t => t.status == 0x00000009#32 && t.outBuf == [0x01#8, 0x02#8, 0x03#8] &&
        t.frame == { crcCalc := 0xEE2A#32, crcRx := 0xEE2A#32, hdrId := 1#32, hdrProto := 6#32, hdrDlen := 5#32,
                     hdrUnit := 1#32, hdrKind := 0x16#32, kindClass := 3#32 }) = true := by
  decide +kernel

/-- F9, F12, F16: Truncated, LengthMismatch, ChecksumMismatch. -/
theorem test_frame_errors :
    nextIs (exec .frame (loaded [0x00#8, 0x01#8, 0x00#8, 0x06#8, 0x00#8, 0x05#8, 0x01#8, 0x16#8, 0x46#8, 0x70#8, 0x6C#8, 0xEE#8]))
      (fun t => t.status == 0x00000105#32 && t.error == { errA := 13#32, errB := 12#32 }) = true ∧
    nextIs (exec .frame (loaded [0x00#8, 0x01#8, 0x00#8, 0x06#8, 0x00#8, 0x01#8, 0x01#8, 0x16#8, 0x55#8, 0xF9#8]))
      (fun t => t.status == 0x00000405#32 && t.error == { errA := 9#32, errB := 10#32 }) = true ∧
    nextIs (exec .frame (loaded [0x00#8, 0x02#8, 0x00#8, 0x06#8, 0x00#8, 0x02#8, 0x01#8, 0x16#8, 0x55#8, 0xF9#8]))
      (fun t => t.status == 0x00000205#32 && t.error == { errA := 0x55F9#32, errB := 0x55CA#32 }) = true := by
  decide +kernel

/-- RD2, T9. -/
theorem test_record_decodes :
    nextIs (exec .record framedD) (fun t => t == decodedD) = true ∧
    nextIs (exec .record (framedAt 0x6A#8 0x02#8 0x07#8 0x06#8 0x1C#8 0x10#8))
      (fun t => t.record == { tsUnixLo := 0#32, tsUnixHi := 1#32, tsDate := 0x083A0207#32,
                              tsTime := 0x00061C10#32 }) = true := by
  decide +kernel

/-- RD7, T7. -/
theorem test_record_errors :
    nextIs (exec .record State.reset) (fun t => t.status == 0x00000505#32 && t.error == {}) = true ∧
    nextIs (exec .record (framedAt 0x64#8 0x02#8 0x1D#8 0x00#8 0x00#8 0x00#8))
      (fun t => t.status == 0x0000030D#32 && t.error == { errA := 0x0064021D#32, errB := 0#32 } &&
        t.record == {} && t.frame == framedD.frame) = true := by
  decide +kernel

set_option maxRecDepth 100000 in
/-- The checksum of data frame D (row C16). -/
theorem test_frameD_checksum :
    crc16 (wireBody 0x00#8 0x05#8 0x00#8 0x06#8 0x01#8 0x9B#8 0x01#8 0x04#8 (mask payloadD)) = 0xBC#8 ++ 0x4B#8 := by
  decide +kernel

/-- FrameDecode of data frame D (rows RD1, RD2). -/
theorem test_frameDecode_data : frameDecode (loaded frameD) =
    .ok { id := be [0x00#8, 0x05#8], proto := be [0x00#8, 0x06#8], dl := be [0x01#8, 0x9B#8], unit := 0x01#8,
          kind := 0x04#8, rx := 0xBC#8 ++ 0x4B#8, computed := 0xBC#8 ++ 0x4B#8,
          payload := mask (mask payloadD) } := by
  rw [frameDecode_wire (loaded_inputIs frameD (by decide +kernel)), test_frameD_checksum,
    if_neg (by decide +kernel), if_neg (by decide +kernel), if_neg (by decide)]

/-- RD1: DECODE of the whole of data frame D. -/
theorem test_decode_data :
    nextIs (exec .decode (loaded frameD)) (fun t => { t with inBuf := [] } == { decodedD with
      inLen := 419#32 }) = true := by
  have h : ∀ s, exec .decode s = execDecode s := fun _ => rfl
  rw [h, execDecode_eq, test_frameDecode_data]
  decide +kernel

/-- S15, RD6: a Ping frame stops after its header, a short Data payload keeps the frame. -/
theorem test_decode_other :
    nextIs (exec .decode (loaded ping)) (fun t => t.status == 0x00000009#32 && t.record == {}) = true ∧
    nextIs (exec .decode (loaded [0x00#8, 0x05#8, 0x00#8, 0x06#8, 0x00#8, 0x02#8, 0x01#8, 0x04#8, 0x98#8, 0x3C#8]))
      (fun t => t.status == 0x0000010D#32 && t.error == { errA := 409#32, errB := 0#32 }) = true := by
  decide +kernel

/-- Frame D's wire form: the first lines of its listing in 95_test_vectors.md, and its length. -/
theorem test_frameD_wire :
    frameD.take 16 = [0x00#8, 0x05#8, 0x00#8, 0x06#8, 0x01#8, 0x9B#8, 0x01#8, 0x04#8, 0x06#8, 0x30#8, 0x2C#8, 0x46#8, 0x53#8, 0x47#8, 0x40#8, 0x72#8] ∧
    (frameD.drop 0x50).take 8 = [0x6E#8, 0x77#8, 0x61#8, 0x44#8, 0x4D#8, 0x4C#8, 0xCA#8, 0x6F#8] ∧ frameD.length = 419 := by
  decide +kernel

/-- The FIELD group a command leaves, with the groups it must keep. -/
def fieldIs (i : Instr) (s : State) (f : FieldGroup) : Bool :=
  nextIs (exec i s) (fun t => t == { s with status := 0x00000039#32, field := f })

/-- Rows of section 2.5 of 95_test_vectors.md. -/
theorem test_fields_0 :
    fieldIs .fieldSerial decodedD ⟨0x00#32, 0#32, 10#32, 1#32, 0#32, 0#32, 0#32, 0#32⟩ = true ∧
    fieldIs .fieldRsv10 decodedD ⟨0x01#32, 10#32, 20#32, 1#32, 0#32, 0#32, 0#32, 0#32⟩ = true ∧
    fieldIs .fieldInverterId decodedD ⟨0x02#32, 30#32, 10#32, 1#32, 0#32, 0#32, 0#32, 0#32⟩ = true ∧
    fieldIs .fieldRsv40 decodedD ⟨0x03#32, 40#32, 20#32, 1#32, 0#32, 0#32, 0#32, 0#32⟩ = true ∧
    fieldIs .fieldTsYear decodedD ⟨0x04#32, 60#32, 1#32, 0#32, 24#32, 0#32, 24#32, 0#32⟩ = true ∧
    fieldIs .fieldTsMonth decodedD ⟨0x05#32, 61#32, 1#32, 0#32, 3#32, 0#32, 3#32, 0#32⟩ = true ∧
    fieldIs .fieldTsDay decodedD ⟨0x06#32, 62#32, 1#32, 0#32, 15#32, 0#32, 15#32, 0#32⟩ = true ∧
    fieldIs .fieldTsHour decodedD ⟨0x07#32, 63#32, 1#32, 0#32, 10#32, 0#32, 10#32, 0#32⟩ = true ∧
    fieldIs .fieldTsMinute decodedD ⟨0x08#32, 64#32, 1#32, 0#32, 30#32, 0#32, 30#32, 0#32⟩ = true ∧
    fieldIs .fieldTsSecond decodedD ⟨0x09#32, 65#32, 1#32, 0#32, 0#32, 0#32, 0#32, 0#32⟩ = true ∧
    fieldIs .fieldRsv66 decodedD ⟨0x0A#32, 66#32, 6#32, 1#32, 0#32, 0#32, 0#32, 0#32⟩ = true := by
  decide +kernel

/-- Rows of section 2.5 of 95_test_vectors.md. -/
theorem test_fields_1 :
    fieldIs .fieldStatus decodedD ⟨0x0B#32, 72#32, 1#32, 0#32, 1#32, 0#32, 1#32, 0#32⟩ = true ∧
    fieldIs .fieldDcInputPower decodedD ⟨0x0C#32, 73#32, 4#32, 0#32, 12345#32, 0#32, 12345#32, 0#32⟩ = true ∧
    fieldIs .fieldPv1Voltage decodedD ⟨0x0D#32, 77#32, 2#32, 0#32, 3000#32, 0#32, 3000#32, 0#32⟩ = true ∧
    fieldIs .fieldPv1Current decodedD ⟨0x0E#32, 79#32, 2#32, 0#32, 50#32, 0#32, 50#32, 0#32⟩ = true ∧
    fieldIs .fieldPv1Power decodedD ⟨0x0F#32, 81#32, 4#32, 0#32, 15000#32, 0#32, 15000#32, 0#32⟩ = true ∧
    fieldIs .fieldPv2Voltage decodedD ⟨0x10#32, 85#32, 2#32, 0#32, 2900#32, 0#32, 2900#32, 0#32⟩ = true ∧
    fieldIs .fieldPv2Current decodedD ⟨0x11#32, 87#32, 2#32, 0#32, 48#32, 0#32, 48#32, 0#32⟩ = true ∧
    fieldIs .fieldPv2Power decodedD ⟨0x12#32, 89#32, 4#32, 0#32, 13920#32, 0#32, 13920#32, 0#32⟩ = true ∧
    fieldIs .fieldPvOutputPower decodedD ⟨0x13#32, 93#32, 4#32, 0#32, 14500#32, 1#32, 1450#32, 0#32⟩ = true ∧
    fieldIs .fieldFrequency decodedD ⟨0x14#32, 97#32, 2#32, 0#32, 5001#32, 2#32, 50#32, 1#32⟩ = true ∧
    fieldIs .fieldGridVoltage decodedD ⟨0x15#32, 99#32, 2#32, 0#32, 2301#32, 1#32, 230#32, 1#32⟩ = true := by
  decide +kernel

/-- Rows of section 2.5 of 95_test_vectors.md. -/
theorem test_fields_2 :
    fieldIs .fieldRsv101 decodedD ⟨0x16#32, 101#32, 16#32, 1#32, 0#32, 0#32, 0#32, 0#32⟩ = true ∧
    fieldIs .fieldAcActivePower decodedD ⟨0x17#32, 117#32, 4#32, 0#32, 1400#32, 0#32, 1400#32, 0#32⟩ = true ∧
    fieldIs .fieldAcFrequency decodedD ⟨0x18#32, 121#32, 2#32, 0#32, 4999#32, 2#32, 49#32, 99#32⟩ = true ∧
    fieldIs .fieldAc1Voltage decodedD ⟨0x19#32, 123#32, 2#32, 0#32, 2300#32, 0#32, 2300#32, 0#32⟩ = true ∧
    fieldIs .fieldAc1Current decodedD ⟨0x1A#32, 125#32, 2#32, 0#32, 60#32, 0#32, 60#32, 0#32⟩ = true ∧
    fieldIs .fieldAc1Power decodedD ⟨0x1B#32, 127#32, 4#32, 0#32, 13800#32, 0#32, 13800#32, 0#32⟩ = true ∧
    fieldIs .fieldRsv131 decodedD ⟨0x1C#32, 131#32, 38#32, 1#32, 0#32, 0#32, 0#32, 0#32⟩ = true ∧
    fieldIs .fieldEnergyDaily decodedD ⟨0x1D#32, 169#32, 4#32, 0#32, 85#32, 0#32, 85#32, 0#32⟩ = true ∧
    fieldIs .fieldRsv173 decodedD ⟨0x1E#32, 173#32, 4#32, 1#32, 0#32, 0#32, 0#32, 0#32⟩ = true ∧
    fieldIs .fieldEnergyTotal decodedD ⟨0x1F#32, 177#32, 4#32, 0#32, 123456#32, 0#32, 123456#32, 0#32⟩ = true ∧
    fieldIs .fieldRsv181 decodedD ⟨0x20#32, 181#32, 162#32, 1#32, 0#32, 0#32, 0#32, 0#32⟩ = true := by
  decide +kernel

/-- Rows of section 2.5 of 95_test_vectors.md. -/
theorem test_fields_3 :
    fieldIs .fieldBatDischargePower decodedD ⟨0x21#32, 343#32, 4#32, 0#32, 0#32, 1#32, 0#32, 0#32⟩ = true ∧
    fieldIs .fieldBatChargePower decodedD ⟨0x22#32, 347#32, 4#32, 0#32, 2500#32, 1#32, 250#32, 0#32⟩ = true ∧
    fieldIs .fieldBatVoltage decodedD ⟨0x23#32, 351#32, 2#32, 0#32, 512#32, 1#32, 51#32, 2#32⟩ = true ∧
    fieldIs .fieldSoc decodedD ⟨0x24#32, 353#32, 2#32, 0#32, 6500#32, 2#32, 65#32, 0#32⟩ = true ∧
    fieldIs .fieldLoadPower decodedD ⟨0x25#32, 355#32, 4#32, 0#32, 9000#32, 1#32, 900#32, 0#32⟩ = true ∧
    fieldIs .fieldRsv359 decodedD ⟨0x26#32, 359#32, 48#32, 1#32, 0#32, 0#32, 0#32, 0#32⟩ = true ∧
    fieldIs .fieldBatTemperature decodedD ⟨0x27#32, 407#32, 2#32, 0#32, 253#32, 1#32, 25#32, 3#32⟩ = true ∧
    fieldIs .fieldExtra decodedD ⟨0x28#32, 409#32, 0#32, 1#32, 0#32, 0#32, 0#32, 0#32⟩ = true := by
  decide +kernel

/-- FD2, FD5: the selector is checked before the record. -/
theorem test_field_bad_selector :
    nextIs (exec (.field 0x29#8) decodedD) (fun t => t == { decodedD with
      status := 0x0000071D#32, error := { errA := 0x29#32, errB := 0#32 } }) = true ∧
    nextIs (exec (.field 0x29#8) State.reset) (fun t => t.status == 0x00000705#32) = true := by
  decide +kernel

/-- FD4. -/
theorem test_field_no_record :
    nextIs (exec .fieldSoc State.reset) (fun t => t == { State.reset with status := 0x00000605#32 }) = true := by
  decide +kernel

/-- FD8, FD9: all ones, unsigned. -/
theorem test_field_all_ones :
    fieldIs .fieldBatDischargePower { decodedD with outBuf := payloadD.take 343 ++ [0xFF#8, 0xFF#8, 0xFF#8, 0xFF#8] ++ payloadD.drop 347 }
      ⟨0x21#32, 343#32, 4#32, 0#32, 4294967295#32, 1#32, 429496729#32, 5#32⟩ = true ∧
    fieldIs .fieldBatTemperature { decodedD with outBuf := payloadD.take 407 ++ [0xFF#8, 0xFF#8] }
      ⟨0x27#32, 407#32, 2#32, 0#32, 65535#32, 1#32, 6553#32, 5#32⟩ = true := by
  decide +kernel

/-! ## Steps -/

/-- K3: an illegal word, CMD included, after a step. -/
theorem test_illegal_word :
    nextIs (step { framedD with pending := [.write 32 0x00000000#32 0x00000008#32] }) (fun t => t == { framedD with
      cmd := 8#32, status := 0x0000080D#32, error := { errA := 8#32, errB := 0#32 } }) = true := by
  decide +kernel

/-- A word placed for the next step runs as the first command after reset. -/
theorem test_withFetchWord :
    nextIs (step (State.reset.withFetchWord 32 0x00000007)) (fun t => t == { State.reset with
      cmd := 7#32, status := 1#32 }) = true := by decide +kernel

/-- Z1 to Z9, Z11: the refused accesses. -/
theorem test_refused_accesses :
    refusedWith (step (withAccess (.read 32 0x0000006C#32))) .unmapped = true ∧
    refusedWith (step (withAccess (.write 32 0x00010000#32 0#32))) .unmapped = true ∧
    refusedWith (step (withAccess (.read 16 0x00000004#32))) .registerAccess = true ∧
    refusedWith (step (withAccess (.read 32 0x00000006#32))) .registerAccess = true ∧
    refusedWith (step (withAccess (.write 32 0x00000004#32 1#32))) .readOnly = true ∧
    refusedWith (step (withAccess (.write 8 0x00040000#32 0#32))) .readOnly = true ∧
    refusedWith (step (withAccess (.write 32 0x00000008#32 65544#32))) .lengthAboveCap = true ∧
    refusedWith (step (withAccess (.read 32 0x00020000#32))) .bufferAccess = true ∧
    refusedWith (step (withAccess (.read 8 0x00040000#32))) .bufferAccess = true ∧
    refusedWith (step (withAccess (.read 8 0x00020000#32))) .unwrittenByte = true := by
  decide +kernel

/-- Z12, Z13, Z14: the unwritten byte of a command, and its boundary. -/
theorem test_refused_commands :
    refusedWith (exec .crc16 { State.reset with inLen := 1#32 }) .unwrittenInput = true ∧
    refusedWith (exec .frame { State.reset with inLen := 10#32, inBuf := cells 0 (ping.take 9) }) .unwrittenInput = true ∧
    nextIs (exec .frame { State.reset with inLen := 10#32, inBuf := cells 0 [0x00#8, 0x01#8, 0x00#8, 0x06#8, 0xFF#8, 0xFF#8, 0x01#8, 0x16#8] })
      (fun t => t.error == { errA := 65543#32, errB := 10#32 }) = true := by
  decide +kernel

/-- A read of the last register returns its value, oldest value last. -/
theorem test_read :
    nextIs (step { decodedD with field := { fFrac := 7#32 }, pending := [.read 32 0x00000068#32] })
      (fun t => t.received == [7#32]) = true := by decide +kernel

/-! ## Witnesses -/

/-- A state with this access pending and data frame D decoded. -/
def decodedThen (a : HostAction) : State := { decodedD with pending := [a] }

/-- The answer is a next state. -/
def isNext (x : Host.Outcome State Fault Refusal) : Bool := nextIs x (fun _ => true)

theorem exists_next {x : Host.Outcome State Fault Refusal} (h : isNext x = true) : ∃ t, x = .next t := by
  cases x with
  | next t => exact ⟨t, rfl⟩
  | fault f => cases h
  | refused r => cases h

theorem witness_EncodedCommandDecodesBack :
    (Instr.field 0x29#8).wellFormed = true ∧ Instr.clear.wellFormed = true := by decide

theorem witness_DecodedWordEncodesBack :
    decode 0x00002805#32 = .ok .fieldExtra ∧ decode 0x00002905#32 = .ok (.field 0x29#8) := by decide

/-- Each of the three grounds alone, and the legal word beside each. -/
theorem witness_IllegalWordsAreExactlyThese :
    illegalWord 0x00010000#32 ∧ illegalWord 0x00000008#32 ∧ illegalWord 0x00000100#32 ∧
    ¬ illegalWord 0x0000FF05#32 ∧ ¬ illegalWord 0x00000007#32 ∧ 0x29 ≤ (0x29#8 : Byte).toNat := by decide

theorem witness_StepRunsTheWrittenCommand :
    (withAccess (.write 32 0x00000000#32 0x00000003#32)).pending = [.write 32 0x00000000#32 0x00000003#32] ∧
    decode 0x00000003#32 = .ok .frame ∧
    (withAccess (.write 32 0x00000000#32 0x00000008#32)).pending = [.write 32 0x00000000#32 0x00000008#32] ∧
    decode 0x00000008#32 = .error (.unknownOp 0x08#8) := by decide

theorem witness_CmdHoldsTheLastWord :
    (withAccess (.write 32 0x00000000#32 0xFFFFFFFF#32)).pending = [.write 32 0x00000000#32 0xFFFFFFFF#32] ∧
    (withAccess (.read 32 0x00000000#32)).pending = [.read 32 0x00000000#32] ∧
    decode 0x00000000#32 = .ok .nop ∧ ∃ t, coreStep 0xFFFFFFFF#32 State.reset = .next t :=
  ⟨by decide, by decide, by decide, exists_next (by decide)⟩

theorem witness_IdleAndResetKeepTheHostLists :
    decodedD.pending = [] ∧ (decodedThen .reset).pending = [.reset] := ⟨rfl, rfl⟩

theorem witness_ResetActionClearsTheBlock : (decodedThen .reset).pending = [.reset] := rfl

/-- The last register, IN_LEN at its greatest value, the last bytes of the window, and the read-only neighbours of
CMD and IN_LEN. -/
theorem witness_RegisterWindowAccesses :
    (∃ r ∈ registerMap, r.1 = 0x68#32 ∧ (decodedThen (.read 32 r.1)).pending = [.read 32 r.1]) ∧
    (65543#32 : Word).toNat ≤ 65543 ∧
    ((0x6B#32 : Word).toNat < 0x6C ∧ (0x6B#32 : Word).toNat % 4 ≠ 0) ∧
    ((0x00#32 : Word).toNat < 0x6C ∧ 16 ≠ 32) ∧
    ((0x04#32 : Word).toNat < 0x6C ∧ (0x04#32 : Word).toNat % 4 = 0 ∧ (0x04#32 : Word) ≠ 0x00000000#32 ∧
      (0x04#32 : Word) ≠ 0x00000008#32) ∧
    ((0x68#32 : Word).toNat < 0x6C ∧ (0x68#32 : Word).toNat % 4 = 0) :=
  ⟨⟨(0x68#32, fun s => s.field.fFrac), by simp [registerMap], rfl, rfl⟩, by decide, by decide, by decide,
    by decide, by decide⟩

/-- Both ends of each range. -/
theorem witness_UnmappedAccessesAreRefused :
    ([0x0000006C#32, 0x0001FFFF#32, 0x00030007#32, 0x0003FFFF#32, 0x00060000#32, 0xFFFFFFFF#32] : List Word).all
      (fun addr => decide ((0x6C ≤ addr.toNat ∧ addr.toNat < 0x00020000) ∨
        (0x00020000 + 65543 ≤ addr.toNat ∧ addr.toNat < 0x00040000) ∨ 0x00060000 ≤ addr.toNat)) = true := by
  decide

theorem witness_InLenIsTheInputLength :
    (65543#32 : Word).toNat ≤ 65543 ∧ 65543 < (65544#32 : Word).toNat ∧
    (withAccess (.write 32 0x00000008#32 65544#32)).pending = [.write 32 0x00000008#32 65544#32] ∧
    ∃ t, coreStep 0x00000007#32 State.reset = .next t :=
  ⟨by decide, by decide, by decide, exists_next (by decide)⟩

/-- The last IN_BUF byte written and unwritten, the last byte of OUT_BUF and the first past it, the last byte of the
OUT_BUF window, another width, and the first index past `IN_CAP`. -/
theorem witness_BufferWindowAccesses :
    (65542 < 65543 ∧ (withAccess (.write 8 (BitVec.ofNat 32 (0x00020000 + 65542)) 0xAB#32)).pending =
      [.write 8 (BitVec.ofNat 32 (0x00020000 + 65542)) ((0xAB#8 : Byte).setWidth 32)]) ∧
    Memory.read [(65542, 0xAB#8)] 65542 = some 0xAB#8 ∧ State.reset.inBuf.read 65542 = none ∧
    decodedD.outBuf[408]? = some 0xFD#8 ∧ decodedD.outBuf.length ≤ 409 ∧ 0x1FFFF < 0x20000 ∧ 16 ≠ 8 ∧
    65543 ≤ 65543 := by decide +kernel

theorem witness_HostAccessesKeepTheResults :
    (decodedThen (.read 32 0x00000004#32)).pending = [.read 32 0x00000004#32] ∧
    HostAction.read 32 0x00000004#32 ≠ .reset ∧
    (∀ width w, HostAction.read 32 0x00000004#32 ≠ .write width 0x00000000#32 w) ∧
    ∃ t, step (decodedThen (.read 32 0x00000004#32)) = .next t :=
  ⟨rfl, by decide, by simp, exists_next (by decide +kernel)⟩

theorem witness_Crc16CommandWritesTheCrc :
    (loaded ping).inputIs ping ∧ State.reset.inLen = 0#32 ∧
    ∃ s : State, ∃ j, j < s.inLen.toNat ∧ s.inBuf.read j = none :=
  ⟨loaded_inputIs _ (by decide), rfl, { State.reset with inLen := 1#32 }, 0, by decide, by decide⟩

theorem witness_XorCommandMasksTheInput :
    (loaded ping).inputIs ping ∧ ∃ s : State, ∃ j, j < s.inLen.toNat ∧ s.inBuf.read j = none :=
  ⟨loaded_inputIs _ (by decide), { State.reset with inLen := 1#32 }, 0, by decide, by decide⟩

theorem witness_MaskXorsByPosition : ping[9]? = some 0xF9#8 := by decide

/-- `L` = 9, and `L` = 10 with a length one too great and one too small. -/
theorem witness_FrameLengthChecks :
    (loaded (ping.take 9)).inLen.toNat < 10 ∧
    (10 ≤ (loaded ping).inLen.toNat ∧
      (∀ j, j < 8 → (loaded (ping.set 5 0x03#8)).inBuf.read j =
        [0x00#8, 0x01#8, 0x00#8, 0x06#8, 0x00#8, 0x03#8, 0x01#8, 0x16#8][j]?) ∧
      (loaded (ping.set 5 0x03#8)).inLen.toNat < (0x00#8 : Byte).toNat * 256 + (0x03#8 : Byte).toNat + 8) ∧
    ((∀ j, j < 8 → (loaded (ping.set 5 0x01#8)).inBuf.read j =
        [0x00#8, 0x01#8, 0x00#8, 0x06#8, 0x00#8, 0x01#8, 0x01#8, 0x16#8][j]?) ∧
      (0x00#8 : Byte).toNat * 256 + (0x01#8 : Byte).toNat + 8 < (loaded (ping.set 5 0x01#8)).inLen.toNat) := by
  decide

/-- Row F15. -/
theorem witness_FrameChecksumMismatch :
    (loaded (wireBody 0x00#8 0x01#8 0x00#8 0x06#8 0x00#8 0x02#8 0x01#8 0x16#8 [] ++ [0x55#8, 0xF8#8])).inputIs
      (wireBody 0x00#8 0x01#8 0x00#8 0x06#8 0x00#8 0x02#8 0x01#8 0x16#8 [] ++ [0x55#8, 0xF8#8]) ∧
    ([] : List Byte).length + 2 = (0x00#8 : Byte).toNat * 256 + (0x02#8 : Byte).toNat ∧
    crc16 (wireBody 0x00#8 0x01#8 0x00#8 0x06#8 0x00#8 0x02#8 0x01#8 0x16#8 []) ≠ 0x55#8 ++ 0xF8#8 :=
  ⟨loaded_inputIs _ (by decide), by decide, by decide +kernel⟩

/-- Row F1, and an error that leaves FRAME_VALID 0 (row F6). -/
theorem witness_FrameCommitsTheDecodedFrame :
    ((loaded (wireBody 0x00#8 0x01#8 0x00#8 0x06#8 0x00#8 0x02#8 0x01#8 0x16#8 [] ++ [0x55#8, 0xF9#8])).inputIs
        (wireBody 0x00#8 0x01#8 0x00#8 0x06#8 0x00#8 0x02#8 0x01#8 0x16#8 [] ++ [0x55#8, 0xF9#8]) ∧
      ([] : List Byte).length + 2 = (0x00#8 : Byte).toNat * 256 + (0x02#8 : Byte).toNat ∧
      crc16 (wireBody 0x00#8 0x01#8 0x00#8 0x06#8 0x00#8 0x02#8 0x01#8 0x16#8 []) = 0x55#8 ++ 0xF9#8) ∧
    nextIs (exec .frame State.reset) (fun t => flag frameValidBit t.status == false) = true :=
  ⟨⟨loaded_inputIs _ (by decide), by decide, by decide +kernel⟩, by decide⟩

theorem witness_UnwrittenInputIsRefused :
    (0 < ({ State.reset with inLen := 1#32 } : State).inLen.toNat ∧ State.reset.inBuf.read 0 = none) ∧
    (10 ≤ ({ State.reset with inLen := 10#32, inBuf := cells 0 (ping.take 7) } : State).inLen.toNat ∧
      Memory.read (cells 0 (ping.take 7)) 7 = none) ∧
    (Memory.read (cells 0 (ping.take 9)) 4 = some 0x00#8 ∧ Memory.read (cells 0 (ping.take 9)) 5 = some 0x02#8 ∧
      ({ State.reset with inLen := 10#32, inBuf := cells 0 (ping.take 9) } : State).inLen.toNat =
        (0x00#8 : Byte).toNat * 256 + (0x02#8 : Byte).toNat + 8 ∧
      Memory.read (cells 0 (ping.take 9)) 9 = none) := by decide

/-- FRAME of the Ping frame ends with FRAME_VALID. -/
theorem witness_Crc16OfBodyIsTheFrameCrc :
    nextIs (exec .frame (loaded ping)) (fun t => flag frameValidBit t.status) = true := by decide +kernel

/-- The frame of row F2, built from its payload. -/
theorem witness_BuiltFrameDecodesToItsPayload :
    [0x01#8, 0x02#8, 0x03#8].length ≤ 65533 ∧ (0x00#8 ++ 0x05#8 : BitVec 16) = BitVec.ofNat 16 (3 + 2) ∧
    (0xEE#8 ++ 0x2A#8 : BitVec 16) = crc16 (wireBody 0x00#8 0x01#8 0x00#8 0x06#8 0x00#8 0x05#8 0x01#8 0x16#8
      (mask [0x01#8, 0x02#8, 0x03#8])) ∧
    (loaded (wireBody 0x00#8 0x01#8 0x00#8 0x06#8 0x00#8 0x05#8 0x01#8 0x16#8 (mask [0x01#8, 0x02#8, 0x03#8]) ++
      [0xEE#8, 0x2A#8])).inputIs (wireBody 0x00#8 0x01#8 0x00#8 0x06#8 0x00#8 0x05#8 0x01#8 0x16#8
        (mask [0x01#8, 0x02#8, 0x03#8]) ++ [0xEE#8, 0x2A#8]) :=
  ⟨by decide, by decide, by decide +kernel, loaded_inputIs _ (by decide)⟩

/-- The Ping frame, its first byte and its last byte changed. -/
theorem witness_OneChangedByteIsDetected :
    (loaded ping).inputIs ping ∧
    nextIs (exec .decode (loaded ping)) (fun t => flag frameValidBit t.status) = true ∧
    (0 < ping.length ∧ ping[0]? ≠ some 0x80#8 ∧ (loaded (ping.set 0 0x80#8)).inputIs (ping.set 0 0x80#8)) ∧
    (9 < ping.length ∧ ping[9]? ≠ some 0x00#8 ∧ (loaded (ping.set 9 0x00#8)).inputIs (ping.set 9 0x00#8)) :=
  ⟨loaded_inputIs _ (by decide), by decide +kernel, ⟨by decide, by decide, loaded_inputIs _ (by decide)⟩,
    by decide, by decide, loaded_inputIs _ (by decide)⟩

/-- The Ping frame with a wrong checksum: as it is, cut to 9 bytes, and with a length one too great and one too
small. -/
theorem witness_NoPayloadBeforeTheChecksum :
    ∀ bs ∈ [ping.set 9 0x00#8, ping.take 9, ping.set 5 0x03#8, ping.set 5 0x01#8],
      (loaded bs).inputIs bs ∧
      crc16 (bs.take (bs.length - 2)) ≠ BitVec.ofNat 16 (beValue (bs.drop (bs.length - 2))) := by
  intro bs hbs
  have hc : ∀ bs ∈ [ping.set 9 0x00#8, ping.take 9, ping.set 5 0x03#8, ping.set 5 0x01#8],
      bs.length ≤ 65543 ∧
      crc16 (bs.take (bs.length - 2)) ≠ BitVec.ofNat 16 (beValue (bs.drop (bs.length - 2))) := by decide +kernel
  exact ⟨loaded_inputIs _ (by have := (hc bs hbs).1; omega), (hc bs hbs).2⟩

theorem reset_inv : State.reset.Inv := by constructor <;> decide

theorem decodedD_inv : decodedD.Inv := by constructor <;> decide +kernel

/-- No frame; a frame of another kind; a reachable state without a frame. -/
theorem witness_RecordNeedsADataFrame :
    flag frameValidBit State.reset.status = false ∧
    ({ framedD.frame with hdrKind := 0x50#32 } : FrameGroup).hdrKind ≠ 0x04#32 ∧
    State.reset.Inv ∧ flag frameValidBit framedD.status = true :=
  ⟨by decide, by decide, reset_inv, by decide⟩

theorem witness_RecordNeeds409Bytes :
    flag frameValidBit framedD.status = true ∧ framedD.frame.hdrKind = 0x04#32 ∧
    ({ framedD with outBuf := payloadD.take 408 } : State).outBuf.length < 409 := by decide +kernel

/-- Row T7, 29 February 2100, and row T8, the day after the last of that February. -/
theorem witness_RecordRejectsInvalidTimestamps :
    validDateTime 0x64#8 0x03#8 0x01#8 0x00#8 0x00#8 0x00#8 ∧
    (framedAt 0x64#8 0x03#8 0x01#8 0x00#8 0x00#8 0x00#8).timeBytes 0x64#8 0x03#8 0x01#8 0x00#8 0x00#8 0x00#8 ∧
    409 ≤ (framedAt 0x64#8 0x02#8 0x1D#8 0x00#8 0x00#8 0x00#8).outBuf.length ∧
    (framedAt 0x64#8 0x02#8 0x1D#8 0x00#8 0x00#8 0x00#8).timeBytes 0x64#8 0x02#8 0x1D#8 0x00#8 0x00#8 0x00#8 ∧
    ¬ validDateTime 0x64#8 0x02#8 0x1D#8 0x00#8 0x00#8 0x00#8 := by decide +kernel

/-- Row T11, the last instant, with the seconds the spec gives, and a failing RECORD. -/
theorem witness_RecordCommitsTheTimestamp :
    nextIs (exec .record { framedD with outBuf := [] }) (fun t => !flag recValidBit t.status) = true ∧
    flag frameValidBit framedD.status = true ∧ framedD.frame.hdrKind = 0x04#32 ∧
    409 ≤ (framedAt 0xFF#8 0x0C#8 0x1F#8 0x17#8 0x3B#8 0x3B#8).outBuf.length ∧
    (framedAt 0xFF#8 0x0C#8 0x1F#8 0x17#8 0x3B#8 0x3B#8).timeBytes 0xFF#8 0x0C#8 0x1F#8 0x17#8 0x3B#8 0x3B#8 ∧
    validDateTime 0xFF#8 0x0C#8 0x1F#8 0x17#8 0x3B#8 0x3B#8 ∧
    secondsSinceEpoch 0xFF#8 0x0C#8 0x1F#8 0x17#8 0x3B#8 0x3B#8 = 9025257599 := by decide +kernel

/-- The first and the last day the six bytes can say. -/
theorem witness_UnixDaysCountTheDays :
    (0 < 256 ∧ 1 ≤ 1 ∧ unixDays 2000 1 1 = 10957) ∧ (255 < 256 ∧ 12 ≤ 12 ∧ unixDays 2255 12 31 * 86400 + 86399 = 9025257599) := by
  decide

/-- For NumericFieldsAreReported and ByteRangesReportTheirPlace. -/
theorem witness_NumericFieldsAndByteRanges :
    flag recValidBit decodedD.status = true ∧ 409 ≤ decodedD.outBuf.length ∧ decodedD.Inv ∧
    (⟨.fieldEnergyTotal, 0x1F#8, 177, 4⟩ : FieldClaim) ∈ numericRows0 ∧
    (⟨.fieldBatTemperature, 0x27#8, 407, 2⟩ : FieldClaim) ∈ numericRows1 ∧
    (⟨.fieldSoc, 0x24#8, 353, 2⟩ : FieldClaim) ∈ numericRows2 ∧
    (⟨.fieldRsv359, 0x26#8, 359, 48⟩ : FieldClaim) ∈ byteRows :=
  ⟨by decide, by decide +kernel, decodedD_inv, by decide, by decide, by decide, by decide⟩

theorem witness_UndefinedSelectorsAreRejected :
    0x29 ≤ (0x29#8 : Byte).toNat ∧ 0x29 ≤ (0xFF#8 : Byte).toNat := by decide

theorem witness_FieldNeedsARecord :
    (⟨.fieldExtra, 0x28#8, 409, 0⟩ : FieldClaim) ∈ allFieldRows ∧ flag recValidBit framedD.status = false := by
  decide

/-- A row of each exponent (the rows of witness_NumericFieldsAndByteRanges meet the first clause), by its own command
and by FIELD, ends with a number. -/
theorem witness_ScalingIsExact :
    flag recValidBit decodedD.status = true ∧ 409 ≤ decodedD.outBuf.length ∧
    (⟨.fieldBatTemperature, 0x27#8, 407, 2⟩ : FieldClaim) ∈ allFieldRows ∧
    ∀ i ∈ [Instr.fieldEnergyTotal, .fieldBatTemperature, .fieldSoc, .field 0x1F#8, .field 0x27#8, .field 0x24#8],
      nextIs (exec i decodedD) (fun t => flag fieldValidBit t.status && t.field.fKind == 0#32) = true :=
  ⟨by decide, by decide +kernel, by decide, by decide +kernel⟩

/-- The last byte of the record, and its row. -/
theorem witness_LayoutPartitionsTheRecord :
    408 < 409 ∧ (⟨.fieldBatTemperature, 0x27#8, 407, 2⟩ : FieldClaim) ∈ allFieldRows ∧
    (layout 0 0x27#8).any (fun row => decide (row.off ≤ 408) && decide (408 < row.off + row.width)) = true := by
  decide

/-- A Data frame, which goes on to RECORD, a frame of another kind, a failed frame, and a refusal. -/
theorem witness_DecodeIsFrameThenRecord :
    nextIs (exec .frame (loaded [0x00#8, 0x05#8, 0x00#8, 0x06#8, 0x00#8, 0x02#8, 0x01#8, 0x04#8, 0x98#8, 0x3C#8]))
      (fun t => flag frameValidBit t.status && t.frame.hdrKind == 0x04#32) = true ∧
    nextIs (exec .frame (loaded ping)) (fun t => flag frameValidBit t.status && t.frame.hdrKind != 0x04#32) = true ∧
    nextIs (exec .frame State.reset) (fun t => flag errBit t.status) = true ∧
    refusedWith (exec .frame { State.reset with inLen := 10#32 }) .unwrittenInput = true ∧
    isNext (exec .decode (loaded ping)) = true := by decide +kernel

/-- Row F3.50. -/
theorem witness_DecodeOfOtherKindsCommitsTheFrame :
    (0x50#8 : Byte) ≠ 0x04#8 ∧
    (loaded (wireBody 0x00#8 0x01#8 0x00#8 0x06#8 0x00#8 0x02#8 0x01#8 0x50#8 [] ++ [0xA7#8, 0x78#8])).inputIs
      (wireBody 0x00#8 0x01#8 0x00#8 0x06#8 0x00#8 0x02#8 0x01#8 0x50#8 [] ++ [0xA7#8, 0x78#8]) ∧
    ([] : List Byte).length + 2 = (0x00#8 : Byte).toNat * 256 + (0x02#8 : Byte).toNat ∧
    crc16 (wireBody 0x00#8 0x01#8 0x00#8 0x06#8 0x00#8 0x02#8 0x01#8 0x50#8 []) = 0xA7#8 ++ 0x78#8 :=
  ⟨by decide, loaded_inputIs _ (by decide), by decide, by decide +kernel⟩

theorem witness_DecodeOfDataCommitsTheRecord :
    (loaded frameD).inputIs frameD ∧
    (mask payloadD).length + 2 = (0x01#8 : Byte).toNat * 256 + (0x9B#8 : Byte).toNat ∧
    crc16 (wireBody 0x00#8 0x05#8 0x00#8 0x06#8 0x01#8 0x9B#8 0x01#8 0x04#8 (mask payloadD)) = 0xBC#8 ++ 0x4B#8 ∧
    409 ≤ (mask payloadD).length ∧
    State.timeBytes { State.reset with outBuf := mask (mask payloadD) } 0x18#8 0x03#8 0x0F#8 0x0A#8 0x1E#8 0x00#8 ∧
    validDateTime 0x18#8 0x03#8 0x0F#8 0x0A#8 0x1E#8 0x00#8 :=
  ⟨loaded_inputIs frameD (by decide +kernel), by decide +kernel, test_frameD_checksum, by decide +kernel,
    by decide +kernel, by decide +kernel⟩

/-- A command, an access of the buffer and a reset from a state that meets the invariant. -/
theorem witness_StepKeepsTheInvariant :
    decodedD.Inv ∧ State.reset.Inv ∧
    (∃ t, step (decodedThen (.write 32 0x00000000#32 0x00002405#32)) = .next t) ∧
    (∃ t, step (decodedThen (.write 8 0x00030006#32 0xFF#32)) = .next t) ∧
    ∃ t, step (decodedThen .reset) = .next t :=
  ⟨decodedD_inv, reset_inv, exists_next (by decide +kernel), exists_next (by decide +kernel),
    exists_next (by decide +kernel)⟩

theorem witness_InvariantExcludesFaults : decodedD.Inv ∧ State.reset.Inv := ⟨decodedD_inv, reset_inv⟩

theorem witness_CommandsKeepTheInput :
    (∃ t, coreStep 0x00000006#32 (loaded ping) = .next t) ∧ ∃ t, coreStep 0xFFFFFFFF#32 (loaded ping) = .next t :=
  ⟨exists_next (by decide +kernel), exists_next (by decide +kernel)⟩

theorem witness_RecordAndFieldKeepTheFrame :
    (∃ t, exec .record framedD = .next t) ∧ (∃ t, exec .fieldSoc decodedD = .next t) ∧
    ∃ r ∈ allFieldRows, Instr.fieldSoc = r.cmd :=
  ⟨exists_next (by decide +kernel), exists_next (by decide +kernel), by decide⟩

theorem witness_SameCommandTwiceIsOnce :
    ∃ t, step { decodedD with pending := [.write 32 0x00000000#32 0x00000004#32,
      .write 32 0x00000000#32 0x00000004#32] } = .next t := exists_next (by decide +kernel)

/-- Two states that share the input alone. -/
theorem witness_InputCommandsDependOnInputOnly :
    ({ loaded ping with cmd := 1#32, status := 0xFFFFFFFF#32, outBuf := ping } : State).inLen = (loaded ping).inLen ∧
    (∀ a, a < (loaded ping).inLen.toNat →
      Memory.read (loaded ping).inBuf a = (loaded ping).inBuf.read a) ∧
    ∃ t, exec .decode (loaded ping) = .next t :=
  ⟨rfl, fun _ _ => rfl, exists_next (by decide +kernel)⟩

end Sys2Proof.Tests
end

section
/-! SUPPORT. What the registers hold (10_state.md): the reset values, the clear operations, and the registers a host
writes and no command does. -/
namespace Sys2Proof.Machine

/-! ## Reset and the clear operations -/

/-- Every register is 0 after reset (R33). -/
@[simp] theorem State.reset_readReg (r : Reg) : State.reset.readReg r = 0#32 := by
  cases r <;> rfl

/-- Settles O9, register by register. -/
theorem resetStateValues : Obligations.ResetStateValues :=
  ⟨State.reset_readReg, fun _ => rfl, rfl⟩

/-- Clearing the flag of each group keeps every other bit of STATUS (R17, R27). -/
theorem clearFlag_frameValid (st : Word) : clearFlag frameValidBit st = st &&& 0xFFFFFFF7#32 := by
  simp [clearFlag, frameValidBit]

theorem clearFlag_recValid (st : Word) : clearFlag recValidBit st = st &&& 0xFFFFFFEF#32 := by
  simp [clearFlag, recValidBit]

theorem clearFlag_fieldValid (st : Word) : clearFlag fieldValidBit st = st &&& 0xFFFFFFDF#32 := by
  simp [clearFlag, fieldValidBit]

/-- Settles O49: each operation is a record update whose STATUS is the old one under its group's mask. -/
theorem clearOperationsZeroTheirGroup : Obligations.ClearOperationsZeroTheirGroup := by
  intro s
  refine ⟨?_, ?_, ?_, ?_⟩
  · rw [State.clearErr, statusClearErr_eq]
  · rw [State.clearFrame, clearFlag_frameValid]
  · rw [State.clearRec, clearFlag_recValid]
  · rw [State.clearField, clearFlag_fieldValid]

/-! ## What a command leaves alone -/

/-- `t` has the input of `s`, and the host's lists: the parts of the state that only the host writes (R16, R18,
R29, R39, logs 1 and 2). -/
structure State.SameInput (s t : State) : Prop where
  cmd : t.cmd = s.cmd
  inLen : t.inLen = s.inLen
  inBuf : t.inBuf = s.inBuf
  pending : t.pending = s.pending
  received : t.received = s.received

/-- A command keeps the input when its start and its commit do: raising an error and setting DONE keep it too. -/
theorem Attempt.settle_sameInput {α : Type} {a : Attempt α} {s s0 t : State} {commit : State → α → State}
    (h : a.settle s0 commit = .next t) (hstart : s.SameInput s0)
    (hcommit : ∀ x, s.SameInput (commit s0 x)) : s.SameInput t := by
  obtain ⟨x, -, rfl⟩ | ⟨e, -, rfl⟩ := Attempt.settle_eq_next.1 h
  · exact { hcommit x with }
  · exact { hstart with }

theorem execCrc16_sameInput {s t : State} (h : execCrc16 s = .next t) : s.SameInput t := by
  rw [execCrc16_eq] at h
  split at h
  · cases h
  · cases h; exact ⟨rfl, rfl, rfl, rfl, rfl⟩

theorem execXor_sameInput {s t : State} (h : execXor s = .next t) : s.SameInput t := by
  rw [execXor_eq] at h
  split at h
  · cases h
  · cases h; exact ⟨rfl, rfl, rfl, rfl, rfl⟩

theorem execFrame_sameInput {s t : State} (h : execFrame s = .next t) : s.SameInput t := by
  rw [execFrame_eq] at h
  exact Attempt.settle_sameInput h ⟨rfl, rfl, rfl, rfl, rfl⟩ fun _ => ⟨rfl, rfl, rfl, rfl, rfl⟩

theorem execRecord_sameInput {s t : State} (h : execRecord s = .next t) : s.SameInput t := by
  rw [execRecord_eq] at h
  exact Attempt.settle_sameInput h ⟨rfl, rfl, rfl, rfl, rfl⟩ fun _ => ⟨rfl, rfl, rfl, rfl, rfl⟩

theorem fieldCommand_sameInput {sel : Byte} {s t : State} (h : fieldCommand sel s = .next t) : s.SameInput t := by
  rw [fieldCommand_eq] at h
  exact Attempt.settle_sameInput h ⟨rfl, rfl, rfl, rfl, rfl⟩ fun _ => ⟨rfl, rfl, rfl, rfl, rfl⟩

/-- DECODE goes on to RECORD from the committed frame, which has the input of `s` already. -/
theorem execDecode_sameInput {s t : State} (h : execDecode s = .next t) : s.SameInput t := by
  rw [execDecode_eq] at h
  cases hf : frameDecode s with
  | refused r => simp [hf] at h
  | fault f => simp [hf] at h
  | raised e =>
    simp only [hf] at h
    cases h; exact ⟨rfl, rfl, rfl, rfl, rfl⟩
  | ok f =>
    simp only [hf] at h
    split at h
    · exact Attempt.settle_sameInput h ⟨rfl, rfl, rfl, rfl, rfl⟩ fun _ => ⟨rfl, rfl, rfl, rfl, rfl⟩
    · cases h; exact ⟨rfl, rfl, rfl, rfl, rfl⟩

/-- No command writes what the host writes (R16, R18, R29). -/
theorem exec_sameInput {i : Instr} {s t : State} (h : exec i s = .next t) : s.SameInput t := by
  obtain rfl | rfl | rfl | rfl | rfl | rfl | rfl | ⟨sel, hi⟩ := exec_shape i
  · cases h; exact ⟨rfl, rfl, rfl, rfl, rfl⟩
  · exact execCrc16_sameInput h
  · exact execXor_sameInput h
  · exact execFrame_sameInput h
  · exact execRecord_sameInput h
  · exact execDecode_sameInput h
  · cases h; exact ⟨rfl, rfl, rfl, rfl, rfl⟩
  · exact fieldCommand_sameInput (hi s ▸ h)

/-- The core step of a word that encodes a command (R104). -/
theorem coreStep_of_decode_ok {w : Word} {i : Instr} (h : decode w = .ok i) (s : State) :
    coreStep w s = exec i s := by
  simp only [coreStep, h]

/-- The core step of a word that encodes none (R56, R104). -/
theorem coreStep_of_decode_error {w : Word} {e : DecodeError} (h : decode w = .error e) (s : State) :
    coreStep w s = .next (s.illegalWord w) := by
  simp only [coreStep, h]

/-- No core step, of a legal word or not, writes what the host writes (R16, R18, R29, R104). -/
theorem coreStep_sameInput {w : Word} {s t : State} (h : coreStep w s = .next t) : s.SameInput t := by
  cases hd : decode w with
  | ok i => exact exec_sameInput (coreStep_of_decode_ok hd s ▸ h)
  | error e =>
    rw [coreStep_of_decode_error hd] at h
    cases h; exact ⟨rfl, rfl, rfl, rfl, rfl⟩

/-! ## The registers the host writes -/

/-- A 32-bit read at a register's offset returns the whole register and has no side effect (R36). -/
theorem hostAct_readReg (s : State) (r : Reg) :
    hostAct (.read 32 (BitVec.ofNat 32 r.offset)) s = .next { s with received := s.readReg r :: s.received } := by
  simp [hostAct, busRead, target_register]

/-- A 32-bit write to IN_LEN (R18, R118 F4). -/
theorem busWrite_inLen (s : State) (v : Word) : busWrite s 32 0x00000008#32 v =
    if v.toNat ≤ 65543 then .next { s with inLen := v } else .refused .lengthAboveCap := rfl

/-- Settles O6: a write of CMD is the core step of its word, and no core step writes CMD. -/
theorem cmdHoldsTheLastWord : Obligations.CmdHoldsTheLastWord := by
  refine ⟨fun s w rest h => ?_, fun _ s _ h => coreStep_of_decode_ok h s,
    fun _ s _ h => coreStep_of_decode_error h s, fun s rest h => ?_, fun _ _ _ h => (coreStep_sameInput h).cmd⟩
  · rw [step_cons h]
    exact busWrite_cmd _ w
  · rw [step_cons h]
    exact hostAct_readReg _ .cmd

/-- Settles O12: a write of IN_LEN takes a length up to IN_CAP, and no core step writes IN_LEN. -/
theorem inLenIsTheInputLength : Obligations.InLenIsTheInputLength := by
  refine ⟨fun s v rest hv h => ?_, fun s v rest hv h => ?_, fun _ _ _ h => (coreStep_sameInput h).inLen⟩
  · rw [step_cons h, hostAct, busWrite_inLen, if_pos hv]
  · rw [step_cons h, hostAct, busWrite_inLen, if_neg (by omega)]

end Sys2Proof.Machine
end

section
/-! SUPPORT. What the host's reads and writes come to (20_memory.md): one lemma per kind of target, and the step of
an access as the bus operation it is. -/
namespace Sys2Proof.Machine

/-! ## The step of an access -/

/-- A write on the host's list is the bus write of the step (R11). -/
theorem step_write {s : State} {width : Nat} {addr v : Word} {rest : List HostAction}
    (h : s.pending = .write width addr v :: rest) : step s = busWrite { s with pending := rest } width addr v :=
  step_cons h

/-- A read that returns `v` leaves the block alone (R36, R37). -/
theorem step_read_ok {s : State} {width : Nat} {addr v : Word} {rest : List HostAction}
    (h : s.pending = .read width addr :: rest) (hv : busRead { s with pending := rest } width addr = .ok v) :
    step s = .next { s with pending := rest, received := v :: s.received } := by
  simp only [step_cons h, hostAct, hv]

theorem step_read_error {s : State} {width : Nat} {addr : Word} {r : Refusal} {rest : List HostAction}
    (h : s.pending = .read width addr :: rest) (hr : busRead { s with pending := rest } width addr = .error r) :
    step s = .refused r := by
  simp only [step_cons h, hostAct, hr]

/-! ## The bus, by what the address reaches -/

section
variable {addr : Word}

theorem busRead_unmapped (h : target addr = .unmapped) (s : State) (width : Nat) :
    busRead s width addr = .error .unmapped := by
  simp only [busRead, h]

theorem busWrite_unmapped (h : target addr = .unmapped) (s : State) (width : Nat) (v : Word) :
    busWrite s width addr v = .refused .unmapped := by
  simp only [busWrite, h]

/-- A register is reached by 32-bit aligned accesses only (R36, R118 F2). -/
theorem busRead_registerAccess {width : Nat} {r : Reg} {aligned : Bool} (h : target addr = .register r aligned)
    (hbad : ¬(width = 32 ∧ aligned = true)) (s : State) : busRead s width addr = .error .registerAccess := by
  simp only [busRead, h, if_neg hbad]

theorem busWrite_registerAccess {width : Nat} {r : Reg} {aligned : Bool} (h : target addr = .register r aligned)
    (hbad : ¬(width = 32 ∧ aligned = true)) (s : State) (v : Word) :
    busWrite s width addr v = .refused .registerAccess := by
  simp only [busWrite, h, if_neg hbad]

/-- CMD and IN_LEN are the only registers a host writes (R36, R118 F3). -/
theorem busWrite_readOnly {r : Reg} (h : target addr = .register r true) (hcmd : r ≠ .cmd) (hlen : r ≠ .inLen)
    (s : State) (v : Word) : busWrite s 32 addr v = .refused .readOnly := by
  cases r
  case cmd => exact absurd rfl hcmd
  case inLen => exact absurd rfl hlen
  all_goals simp [busWrite, h]

theorem busRead_inBuf_some {i : Nat} {b : Byte} {s : State} (h : target addr = .inBuf i)
    (hb : s.inBuf.read i = some b) : busRead s 8 addr = .ok (b.setWidth 32) := by
  simp [busRead, h, hb]

theorem busRead_inBuf_none {i : Nat} {s : State} (h : target addr = .inBuf i) (hb : s.inBuf.read i = none) :
    busRead s 8 addr = .error .unwrittenByte := by
  simp [busRead, h, hb]

theorem busRead_inBuf_width {i width : Nat} (h : target addr = .inBuf i) (hw : width ≠ 8) (s : State) :
    busRead s width addr = .error .bufferAccess := by
  simp only [busRead, h, if_pos hw]

/-- A byte write of IN_BUF[i] (R37). -/
theorem busWrite_inBuf {i : Nat} (h : target addr = .inBuf i) (s : State) (b : Byte) :
    busWrite s 8 addr (b.setWidth 32) = .next { s with inBuf := s.inBuf.write i b } := by
  simp [busWrite, h]

theorem busWrite_inBuf_width {i width : Nat} (h : target addr = .inBuf i) (hw : width ≠ 8) (s : State) (v : Word) :
    busWrite s width addr v = .refused .bufferAccess := by
  simp only [busWrite, h, if_pos hw]

theorem busRead_outBuf_some {i : Nat} {b : Byte} {s : State} (h : target addr = .outBuf i)
    (hb : s.outBuf[i]? = some b) : busRead s 8 addr = .ok (b.setWidth 32) := by
  simp [busRead, h, hb]

/-- OUT_BUF ends at OUT_LEN (R30, R37). -/
theorem busRead_outBuf_past {i : Nat} {s : State} (h : target addr = .outBuf i) (hi : s.outBuf.length ≤ i) :
    busRead s 8 addr = .error .bufferAccess := by
  simp [busRead, h, List.getElem?_eq_none hi]

theorem busRead_outBuf_width {i width : Nat} (h : target addr = .outBuf i) (hw : width ≠ 8) (s : State) :
    busRead s width addr = .error .bufferAccess := by
  simp only [busRead, h, if_pos hw]

theorem busWrite_outBuf {i : Nat} (h : target addr = .outBuf i) (s : State) (width : Nat) (v : Word) :
    busWrite s width addr v = .refused .readOnly := by
  simp only [busWrite, h]

end

/-! ## The windows -/

/-- The statements' register map is the model's, register by register (R15). -/
theorem registerMap_eq :
    registerMap = allRegs.map fun r => (BitVec.ofNat 32 r.offset, fun s => s.readReg r) := rfl

/-- The rest of the IN_BUF window, past IN_CAP (R35). -/
theorem target_pastInBuf {i : Nat} (hcap : 65543 ≤ i) (hi : i < 0x20000) :
    target (BitVec.ofNat 32 (0x00020000 + i)) = .unmapped := by
  have ht : (BitVec.ofNat 32 (0x00020000 + i) : Word).toNat = 0x00020000 + i := by
    rw [BitVec.toNat_ofNat]; omega
  exact target_unmapped (.inr (.inl ⟨by omega, by omega⟩))

/-- An aligned address in the register window that is not that of CMD or IN_LEN reaches a read-only register. -/
theorem target_readOnly {addr : Word} (hlt : addr.toNat < 0x6C) (hal : addr.toNat % 4 = 0)
    (hcmd : addr ≠ 0x00000000#32) (hlen : addr ≠ 0x00000008#32) :
    ∃ r, target addr = .register r true ∧ r ≠ .cmd ∧ r ≠ .inLen := by
  obtain ⟨r, ht, -, hoff⟩ := target_lt hlt
  have hr : addr.toNat = r.offset := hoff.2 hal
  refine ⟨r, by simpa [hal] using ht, ?_, ?_⟩
  · rintro rfl
    exact hcmd (BitVec.eq_of_toNat_eq hr)
  · rintro rfl
    exact hlen (BitVec.eq_of_toNat_eq hr)

/-- Settles O10, by what the address reaches: reads register by register of the map, the two written registers by
their own laws, and the refusals by alignment and width. -/
theorem registerWindowAccesses : Obligations.RegisterWindowAccesses := by
  intro s rest
  refine ⟨fun m hm h => ?_, fun v h => ?_, fun v hv h => ?_, fun width addr hlt hbad => ?_,
    fun addr v hlt hal hcmd hlen h => ?_⟩
  · rw [registerMap_eq, List.mem_map] at hm
    obtain ⟨r, -, rfl⟩ := hm
    rw [step_cons h]
    exact hostAct_readReg _ r
  · rw [step_write h, busWrite_cmd]
  · rw [step_write h, busWrite_inLen, if_pos hv]
  · obtain ⟨r, ht, -⟩ := target_lt hlt
    have hno : ¬(width = 32 ∧ decide (addr.toNat % 4 = 0) = true) := by
      rw [decide_eq_true_iff]; omega
    exact ⟨fun h => step_read_error h (busRead_registerAccess ht hno _),
      fun v h => ⟨_, (step_write h).trans (busWrite_registerAccess ht hno _ v)⟩⟩
  · obtain ⟨r, ht, hr, hr'⟩ := target_readOnly hlt hal hcmd hlen
    rw [step_write h, busWrite_readOnly ht hr hr']

/-- Settles O13: each access is that of its target, and a byte written to IN_BUF is the one byte that changes. -/
theorem bufferWindowAccesses : Obligations.BufferWindowAccesses := by
  intro s rest
  refine ⟨fun i b hi h => ?_, fun i b hi hb h => ?_, fun i hi hb h => ?_, fun i b hi hb h => ?_,
    fun i hi hpast h => ?_, fun i width v hi h => ?_, fun i width hi hw h => ?_, fun i width hi hw => ?_,
    fun i width hcap hi => ?_⟩
  · exact ⟨_, (step_write h).trans (busWrite_inBuf (target_inBuf hi) _ b), rfl, Memory.read_write_self _ i b,
      fun j hj => Memory.read_write_other _ b hj⟩
  · exact step_read_ok h (busRead_inBuf_some (target_inBuf hi) hb)
  · exact step_read_error h (busRead_inBuf_none (target_inBuf hi) hb)
  · exact step_read_ok h (busRead_outBuf_some (target_outBuf hi) hb)
  · exact step_read_error h (busRead_outBuf_past (target_outBuf hi) hpast)
  · exact ⟨_, (step_write h).trans (busWrite_outBuf (target_outBuf hi) _ width v), fun _ => rfl⟩
  · exact step_read_error h (busRead_outBuf_width (target_outBuf hi) hw _)
  · exact ⟨fun h => step_read_error h (busRead_inBuf_width (target_inBuf hi) hw _),
      fun v h => (step_write h).trans (busWrite_inBuf_width (target_inBuf hi) hw _ v)⟩
  · have ht := target_pastInBuf hcap hi
    exact ⟨fun h => ⟨_, step_read_error h (busRead_unmapped ht _ width), fun _ => rfl⟩,
      fun v h => ⟨_, (step_write h).trans (busWrite_unmapped ht _ width v), fun _ => rfl⟩⟩

end Sys2Proof.Machine
end

section
/-! SUPPORT. The words that encode no command, and what a core step makes of them (30_encoding.md R53 to R56, R103). -/
namespace Sys2Proof.Machine

/-! ## The illegal words -/

/-- A command without operand is refused exactly when ARG is not 0 (R56). -/
theorem noArg_error_iff {w : Word} {i : Instr} : (∃ e, noArg w i = .error e) ↔ argField w ≠ 0#8 := by
  unfold noArg
  split <;> simp [*]

/-- A word with its reserved bits 0 encodes nothing exactly when OP is none of the eight, or ARG is used by a command
other than FIELD (R56). -/
theorem decode_commandWord_error_iff (op arg : Byte) : (∃ e, decode (commandWord op arg) = .error e) ↔
    8 ≤ op.toNat ∨ (arg ≠ 0#8 ∧ op.toNat ≠ 5) := by
  rw [decode_commandWord]
  split
  case h_6 h => simp [h]
  case h_9 =>
    simp only [imp_false] at *
    exact iff_of_true ⟨_, rfl⟩ (.inl (by omega))
  all_goals
    rw [noArg_error_iff, argField_commandWord]
    simp [*]

/-- The words that encode nothing (R56), on any word. -/
theorem decode_error_iff (w : Word) : (∃ e, decode w = .error e) ↔ illegalWord w := by
  have harg : argField w ≠ 0#8 ↔ w.toNat / 256 % 256 ≠ 0 := by
    rw [← argField_toNat, ne_eq, ← BitVec.toNat_inj]; rfl
  have hhigh : highField w = 0#16 ↔ w.toNat / 65536 = 0 := by
    rw [← highField_toNat, ← BitVec.toNat_inj]; rfl
  by_cases h : highField w = 0#16
  · rw [eq_commandWord h, decode_commandWord_error_iff, ← eq_commandWord h, opField_toNat, harg]
    simp [illegalWord, hhigh.1 h]
  · exact iff_of_true ⟨_, decode_of_highField h⟩ (.inl (mt hhigh.2 h))

/-- The core step of an illegal word: DONE and ERR are set, so their old values do not matter (R56, R104). -/
theorem coreStep_illegal {w : Word} (h : illegalWord w) (s : State) : coreStep w s = .next { s with
    status := (s.status &&& 0xFFFF00FF#32) ||| 0x00000805#32
    error := { errA := w, errB := 0#32 } } := by
  obtain ⟨e, he⟩ := (decode_error_iff w).2 h
  have hmask : (s.status &&& 0xFFFF00FF#32) ||| 0x00000805#32 = (s.status &&& 0xFFFF00FA#32) ||| 0x00000805#32 :=
    mask_keep_part s.status 0xFFFF00FA#32 0x00000800#32 5#32
  rw [coreStep_of_decode_error he, illegalWord_eq, hmask]

/-! ## The undefined selectors -/

/-- The FIELD word of a selector, as a number (R54). -/
theorem fieldWord_eq_ofNat (sel : Byte) : BitVec.ofNat 32 (sel.toNat * 256 + 5) = fieldWord sel := by
  apply BitVec.eq_of_toNat_eq
  have := sel.isLt
  rw [fieldWord, commandWord_toNat, BitVec.toNat_ofNat]
  exact Nat.mod_eq_of_lt (by omega)

section
variable {sel : Byte} (h : 0x29 ≤ sel.toNat)
include h

/-- A selector past the named rows has the generic command (R64). -/
theorem fieldInstr_undefined : fieldInstr sel = .field sel :=
  List.getD_eq_default _ _ h

theorem layout_undefined (e : Nat) : layout e sel = none := by
  obtain ⟨rfl, -⟩ | ⟨hlt, -⟩ | ⟨-, hnone⟩ := layout_cases e sel
  · exact absurd h (by decide)
  · omega
  · exact hnone

/-- FIELD of an undefined selector ends with BadSelector, with or without a record (R103, R112). -/
theorem fieldCommand_undefined (s : State) : fieldCommand sel s =
    .next (s.fieldEnd 0x00000705#32 { errA := sel.setWidth 32, errB := 0#32 } {}) := by
  have hraised : fieldSelect s sel = .raised (.badSelector sel) := by
    obtain ⟨-, hr⟩ | ⟨row, hrow, -⟩ := fieldSelect_cases s sel
    · exact hr
    · rw [layout_undefined h] at hrow; cases hrow
  rw [fieldCommand_eq, hraised, Attempt.settle, clearField_raise, errStatus_badSelector]
  rfl

end

/-- Settles O3: decoding fails on R56's grounds alone, and a FIELD word decodes whatever its selector. -/
theorem illegalWordsAreExactlyThese : Obligations.IllegalWordsAreExactlyThese := by
  refine ⟨decode_error_iff, fun w s h => coreStep_illegal h s, fun sel s h => ?_⟩
  have hdecode : decode (fieldWord sel) = .ok (.field sel) := by
    rw [fieldWord, decode_commandWord, ← fieldInstr_undefined h]
    rfl
  rw [fieldWord_eq_ofNat, coreStep_of_decode_ok hdecode]
  exact fieldCommand_undefined h s

end Sys2Proof.Machine
end

section
/-! SUPPORT. The record layout is a partition (30_encoding.md R60): its rows follow each other with no gap, and rows
that do so have each byte between their ends in exactly one of them. -/
namespace Sys2Proof.Machine

/-- The byte index `a` lies in the row. -/
def FieldRow.Covers (row : FieldRow) (a : Nat) : Prop := row.off ≤ a ∧ a < row.off + row.width

/-- The rows follow each other with no gap from byte `i` up to byte `e`. -/
def Tiles (i : Nat) : List FieldRow → Nat → Prop
  | [], e => i = e
  | row :: rows, e => row.off = i ∧ Tiles (i + row.width) rows e

/-- The fixed record has no gap: each reserved range fills the space between two named fields (R60). -/
theorem layoutTable_tiles : Tiles 0 layoutTable 409 := by
  simp [Tiles, layoutTable, layoutRows0, layoutRows1, layoutRows2, layoutRows3]

theorem Tiles.le_off {i e n : Nat} {rows : List FieldRow} {row : FieldRow} (h : Tiles i rows e)
    (hn : rows[n]? = some row) : i ≤ row.off := by
  induction rows generalizing i n with
  | nil => simp at hn
  | cons first rows ih =>
    obtain ⟨rfl, hrest⟩ := h
    cases n with
    | zero => cases hn; exact le_rfl
    | succ n => exact (Nat.le_add_right _ _).trans (ih hrest hn)

/-- A byte between the ends lies in exactly one row. -/
theorem Tiles.existsUnique {i e a : Nat} {rows : List FieldRow} (h : Tiles i rows e) (hi : i ≤ a) (he : a < e) :
    ∃! n : Nat, ∃ row, rows[n]? = some row ∧ row.Covers a := by
  induction rows generalizing i with
  | nil => cases h; omega
  | cons first rows ih =>
    obtain ⟨rfl, hrest⟩ := h
    rcases Nat.lt_or_ge a (first.off + first.width) with hlt | hge
    · refine ⟨0, ⟨first, rfl, hi, hlt⟩, ?_⟩
      rintro (_ | n) ⟨row, hn, hcov, -⟩
      · rfl
      · have := hrest.le_off hn
        omega
    · obtain ⟨n, hn, huniq⟩ := ih hrest hge
      refine ⟨n + 1, hn, ?_⟩
      rintro (_ | m) ⟨row, hm, hcov⟩
      · cases hm
        exact absurd hcov.2 (by omega)
      · rw [huniq m ⟨row, hm, hcov⟩]

/-- Below byte 409 the rows of the selectors are those of the fixed record, selector by selector: EXTRA begins
after it (R60, R97). -/
theorem layout_covers_iff {e a : Nat} {sel : Byte} (ha : a < 409) :
    (∃ row, layout e sel = some row ∧ row.Covers a) ↔
      ∃ row, layoutTable[sel.toNat]? = some row ∧ row.Covers a := by
  by_cases hsel : sel = 0x28#8
  · subst hsel
    refine iff_of_false ?_ ?_
    · rintro ⟨row, hrow, hcov, -⟩
      cases hrow
      exact absurd ha (Nat.not_lt.2 hcov)
    · rintro ⟨row, hrow, -⟩
      cases hrow
  · rw [layout, if_neg hsel]

/-- Each byte of the record lies in the row of exactly one selector (R60). -/
theorem existsUnique_selector {e a : Nat} (ha : a < 409) :
    ∃! sel, ∃ row, layout e sel = some row ∧ row.Covers a := by
  obtain ⟨n, ⟨row, hn, hcov⟩, huniq⟩ := Tiles.existsUnique layoutTable_tiles (Nat.zero_le a) ha
  have hlt : n < 40 := (List.getElem?_eq_some_iff.1 hn).1
  have hsel : (BitVec.ofNat 8 n).toNat = n := by
    rw [BitVec.toNat_ofNat]; omega
  refine ⟨BitVec.ofNat 8 n, (layout_covers_iff ha).2 ⟨row, hsel.symm ▸ hn, hcov⟩, fun sel h => ?_⟩
  rw [← huniq sel.toNat ((layout_covers_iff ha).1 h), BitVec.ofNat_toNat, BitVec.setWidth_eq]

/-- The model's table against the statements' own, row by row (R60). -/
theorem layout_allFieldRows : ∀ r ∈ allFieldRows, ∃ row ∈ layout 0 r.sel, row.off = r.off ∧ row.width = r.width ∧
    (r ∈ numericRows0 → row.k = 0) ∧ (r ∈ numericRows1 → row.k = 1) ∧ (r ∈ numericRows2 → row.k = 2) ∧
    (row.type = .bytes ↔ r ∈ byteRows ∨ r.sel = 0x28#8) ∧ (row.type = .u8 → r.width = 1) ∧
    (row.type = .u16 → r.width = 2) ∧ (row.type = .u32 → r.width = 4) := by
  decide +kernel

/-- Settles O43: the rows of the fixed record leave no gap and do not overlap, the two tables agree, and EXTRA begins
where the record ends. -/
theorem layoutPartitionsTheRecord : Obligations.LayoutPartitionsTheRecord := by
  refine ⟨fun a ha => ?_, layout_allFieldRows, fun e => ⟨extraRow e, rfl, rfl, rfl, rfl⟩⟩
  obtain ⟨sel, ⟨row, hrow, hle, hlt⟩, huniq⟩ := existsUnique_selector (e := 0) ha
  exact ⟨sel, row, hrow, hle, hlt, fun sel' row' h' hle' hlt' => huniq sel' ⟨row', h', hle', hlt'⟩⟩

end Sys2Proof.Machine
end

section
/-! SUPPORT. The command CRC16 and the check value of the function (40_crc16.md R69, R70). -/
namespace Sys2Proof.Machine

/-- A zero length is the empty input: it has no byte that could be unwritten (R18). -/
theorem State.inputIs_nil {s : State} (h : s.inLen = 0#32) : s.inputIs [] :=
  ⟨by rw [h]; rfl, fun _ hi => absurd hi (Nat.not_lt_zero _)⟩

/-- No byte is processed, and there is no final XOR (R66). -/
@[simp] theorem crc16_nil : crc16 [] = 0xFFFF#16 := by decide

theorem execCrc16_of_inputIs {s : State} {bs : List Byte} (h : s.inputIs bs) : execCrc16 s =
    .next { s.clearedWith 0x00000001#32 with frame := { crcCalc := (crc16 bs).setWidth 32 } } := by
  rw [execCrc16_eq, h.bytes]

/-- R118 F7. -/
theorem execCrc16_unwritten {s : State} {j : Nat} (hj : j < s.inLen.toNat) (h : s.inBuf.read j = none) :
    execCrc16 s = .refused .unwrittenInput := by
  have hb : s.inBuf.bytes 0 s.inLen.toNat = none := Memory.bytes_eq_none hj (by rwa [Nat.zero_add])
  rw [execCrc16_eq, hb]

/-- Settles O17, by whether every byte of the input is written; the empty input is one that is. -/
theorem crc16CommandWritesTheCrc : Obligations.Crc16CommandWritesTheCrc := by
  refine ⟨fun s bs h => execCrc16_of_inputIs h, fun s h => ?_, fun s j hj h => execCrc16_unwritten hj h, rfl⟩
  have hempty := execCrc16_of_inputIs (State.inputIs_nil h)
  rwa [crc16_nil] at hempty

/-- Settles O18, by evaluating R66's definition on the nine bytes. -/
theorem crcCheckValue : Obligations.CrcCheckValue := by
  unfold Obligations.CrcCheckValue
  decide +kernel

end Sys2Proof.Machine
end

section
/-! SUPPORT. The mask and the command XOR (41_xor_mask.md R72, R73, R76). -/
namespace Sys2Proof.Machine

@[simp] theorem mask_length (l : List Byte) : (mask l).length = l.length := maskFrom_length 0 l

/-- The mask byte by byte (R73). -/
@[simp] theorem mask_getElem? (l : List Byte) (i : Nat) : (mask l)[i]? = l[i]?.map (· ^^^ key i) := by
  rw [mask, maskFrom_getElem?, Nat.zero_add]

theorem execXor_of_inputIs {s : State} {bs : List Byte} (h : s.inputIs bs) : execXor s =
    .next { s.clearedWith 0x00000001#32 with outBuf := mask bs } := by
  rw [execXor_eq, h.bytes]

/-- R118 F7. -/
theorem execXor_unwritten {s : State} {j : Nat} (hj : j < s.inLen.toNat) (h : s.inBuf.read j = none) :
    execXor s = .refused .unwrittenInput := by
  have hb : s.inBuf.bytes 0 s.inLen.toNat = none := Memory.bytes_eq_none hj (by rwa [Nat.zero_add])
  rw [execXor_eq, hb]

/-- As many bytes as IN_LEN says, read as a register (R18). -/
theorem State.inputIs.ofNat_length {s : State} {bs : List Byte} (h : s.inputIs bs) :
    BitVec.ofNat 32 bs.length = s.inLen := by
  rw [← h.1, BitVec.ofNat_toNat, BitVec.setWidth_eq]

/-- Settles O22, from the bytes of the mask; `key` is R72's list read at `i mod 7`. -/
theorem maskXorsByPosition : Obligations.MaskXorsByPosition := by
  refine fun s => ⟨mask_length s, fun i b hb => ?_⟩
  rw [mask_getElem?, hb]
  rfl

/-- Settles O21, by whether every byte of the input is written; OUT_LEN follows from the length of the mask. -/
theorem xorCommandMasksTheInput : Obligations.XorCommandMasksTheInput := by
  refine ⟨fun s bs h => execXor_of_inputIs h, fun s bs h => ⟨_, execXor_of_inputIs h, ?_⟩,
    fun s j hj h => execXor_unwritten hj h, rfl⟩
  calc BitVec.ofNat 32 (mask bs).length
    _ = BitVec.ofNat 32 bs.length := by rw [mask_length]
    _ = s.inLen := h.ofNat_length

end Sys2Proof.Machine
end

section
/-! SUPPORT. The command FRAME, and the part of DECODE it shares (42_frame_decode.md R79 to R85). -/
namespace Sys2Proof.Machine

/-! ## The checks of FrameDecode, from what each of them reads -/

/-- Too short for any frame: no byte is read (R79). -/
theorem frameDecode_of_lt_minFrame {s : State} (h : s.inLen.toNat < 10) :
    frameDecode s = .raised (.truncated 10 s.inLen.toNat) := by
  rw [frameDecode_eq, if_pos h]

/-- Shorter than the header declares (R79). -/
theorem frameDecode_of_lt_declared {s : State} {h : Header} (hp : headerParse s = some h)
    (h10 : 10 ≤ s.inLen.toNat) (hlt : s.inLen.toNat < h.dl + 8) :
    frameDecode s = .raised (.truncated (h.dl + 8) s.inLen.toNat) := by
  rw [frameDecode_eq, if_neg (Nat.not_lt.2 h10), hp]
  exact if_pos hlt

/-- Longer than the header declares (R79). -/
theorem frameDecode_of_gt_declared {s : State} {h : Header} (hp : headerParse s = some h)
    (h10 : 10 ≤ s.inLen.toNat) (hgt : h.dl + 8 < s.inLen.toNat) :
    frameDecode s = .raised (.lengthMismatch (h.dl + 8) s.inLen.toNat) := by
  rw [frameDecode_eq, if_neg (Nat.not_lt.2 h10), hp]
  exact (if_neg (Nat.lt_asymm hgt)).trans (if_pos hgt)

/-- With lengths that agree only the checksum is left to check (R80, R81). -/
theorem frameDecode_wire_of_length {s : State} {i0 i1 p0 p1 d0 d1 unit kind c0 c1 : Byte} {pl : List Byte}
    (hin : s.inputIs (wireBody i0 i1 p0 p1 d0 d1 unit kind pl ++ [c0, c1]))
    (hlen : pl.length + 2 = d0.toNat * 256 + d1.toNat) :
    frameDecode s =
      if (c0 ++ c1 : Crc) ≠ crc16 (wireBody i0 i1 p0 p1 d0 d1 unit kind pl) then
        .raised (.checksumMismatch (c0 ++ c1) (crc16 (wireBody i0 i1 p0 p1 d0 d1 unit kind pl)))
      else .ok { id := be [i0, i1], proto := be [p0, p1], dl := be [d0, d1], unit := unit, kind := kind,
                 rx := c0 ++ c1, computed := crc16 (wireBody i0 i1 p0 p1 d0 d1 unit kind pl),
                 payload := mask pl } := by
  have hdl : pl.length + 2 = be [d0, d1] := by rw [hlen, be_pair]
  rw [frameDecode_wire hin, if_neg (by omega), if_neg (by omega)]

/-! ## An error of FrameDecode ends FRAME and DECODE alike -/

section
variable {i : Instr} (hi : i ∈ [Instr.frame, Instr.decode]) {s : State}
include hi

/-- Nothing is committed, and every result group but the error is cleared (R84, R107, R110). -/
theorem exec_of_frameDecode_raised {e : CmdError} (h : frameDecode s = .raised e) :
    exec i s = .next (s.frameFailed (errStatus e.code) e.detailA e.detailB) := by
  simp only [List.mem_cons, List.not_mem_nil, or_false] at hi
  obtain rfl | rfl := hi
  · exact execFrame_raised h
  · exact execDecode_raised h

/-- The second detail value is IN_LEN as it stands (R111). -/
theorem exec_of_frameDecode_truncated {n : Nat} (h : frameDecode s = .raised (.truncated n s.inLen.toNat)) :
    exec i s = .next (s.frameFailed 0x00000105#32 (BitVec.ofNat 32 n) s.inLen) := by
  rw [exec_of_frameDecode_raised hi h, errStatus_truncated, CmdError.detailA, CmdError.detailB, BitVec.ofNat_toNat,
    BitVec.setWidth_eq]

theorem exec_of_frameDecode_lengthMismatch {n : Nat}
    (h : frameDecode s = .raised (.lengthMismatch n s.inLen.toNat)) :
    exec i s = .next (s.frameFailed 0x00000405#32 (BitVec.ofNat 32 n) s.inLen) := by
  rw [exec_of_frameDecode_raised hi h, errStatus_lengthMismatch, CmdError.detailA, CmdError.detailB,
    BitVec.ofNat_toNat, BitVec.setWidth_eq]

theorem exec_of_frameDecode_checksumMismatch {rx computed : Crc}
    (h : frameDecode s = .raised (.checksumMismatch rx computed)) :
    exec i s = .next (s.frameFailed 0x00000205#32 (rx.setWidth 32) (computed.setWidth 32)) := by
  rw [exec_of_frameDecode_raised hi h, errStatus_checksumMismatch, CmdError.detailA, CmdError.detailB]

end

/-- Settles O24, check by check; the header's declared length is its bytes 4 and 5. -/
theorem frameLengthChecks : Obligations.FrameLengthChecks := by
  refine fun i hi s => ⟨fun h => exec_of_frameDecode_truncated hi (frameDecode_of_lt_minFrame h),
    fun i0 i1 p0 p1 d0 d1 unit kind h10 hr => ?_⟩
  have hp := headerParse_of_bytes hr
  rw [← be_pair]
  exact ⟨fun hlt => exec_of_frameDecode_truncated hi (frameDecode_of_lt_declared hp h10 hlt),
    fun hgt => exec_of_frameDecode_lengthMismatch hi (frameDecode_of_gt_declared hp h10 hgt)⟩

/-- Settles O25: the lengths agree, so the first check that fails is the checksum. -/
theorem frameChecksumMismatch : Obligations.FrameChecksumMismatch := by
  intro i hi s i0 i1 p0 p1 d0 d1 unit kind c0 c1 pl hin hlen hcrc
  refine exec_of_frameDecode_checksumMismatch hi ?_
  rw [frameDecode_wire_of_length hin hlen, if_pos hcrc.symm]

/-! ## What FRAME commits -/

/-- FRAME on an input that decodes (R82, R84). -/
theorem execFrame_ok {s : State} {f : FrameResult} (h : frameDecode s = .ok f) : execFrame s =
    .next { s.clearedWith 0x00000009#32 with frame := (s.commitFrame f).frame, outBuf := f.payload } := by
  rw [execFrame_eq, h, Attempt.settle, clearAll_commitFrame]

/-- The FRAME group of a decoded frame in the bytes of its header and its checksum (R10, R82). -/
theorem commitFrame_frame_of_bytes (s : State) (i0 i1 p0 p1 d0 d1 unit kind c0 c1 : Byte) (pl : List Byte) :
    (s.commitFrame { id := be [i0, i1], proto := be [p0, p1], dl := be [d0, d1], unit := unit, kind := kind,
                     rx := c0 ++ c1, computed := c0 ++ c1, payload := pl }).frame =
      frameGroupOf i0 i1 p0 p1 d0 d1 unit kind c0 c1 := by
  simp only [State.commitFrame, frameGroupOf, ofNat32_be_pair]

/-- FRAME ends in a next state with FRAME_VALID set or with the FRAME group as ClearFrame left it (R81). -/
theorem execFrame_next_cases {s t : State} (h : execFrame s = .next t) :
    flag frameValidBit t.status = true ∨ (t.frame = {} ∧ t.outBuf = []) := by
  rw [execFrame_eq] at h
  obtain ⟨f, -, rfl⟩ | ⟨e, -, rfl⟩ := Attempt.settle_eq_next.1 h
  · left
    simp [setFlag, flag, frameValidBit, doneBit]
  · exact .inr ⟨rfl, rfl⟩

/-- Settles O26: the checksum read is the one computed, so the FRAME group is a function of the frame's bytes. -/
theorem frameCommitsTheDecodedFrame : Obligations.FrameCommitsTheDecodedFrame := by
  refine ⟨fun s i0 i1 p0 p1 d0 d1 unit kind c0 c1 pl hin hlen hcrc => ?_, fun s t h hv => ?_⟩
  · have hd := frameDecode_wire_of_length hin hlen
    rw [hcrc, if_neg (not_not.2 rfl)] at hd
    calc exec .frame s
      _ = execFrame s := rfl
      _ = _ := by rw [execFrame_ok hd, commitFrame_frame_of_bytes]
  · exact (execFrame_next_cases h).resolve_left (by simp [hv])

end Sys2Proof.Machine
end

section
/-! SUPPORT. The command RECORD: its checks, its timestamp and what it commits (43_record_decode.md R86 to R96). -/
namespace Sys2Proof.Machine

/-! ## RECORD ends with the error of its first failing check, or with the record committed -/

/-- RECORD when one of RecordDecode's checks fails (R96, R110). -/
theorem execRecord_raised {s : State} {e : CmdError} (h : recordDecode s = .raised e) :
    execRecord s = .next (s.recordFailed (errStatus e.code) e.detailA e.detailB) := by
  rw [execRecord_eq, h, Attempt.settle, clearRecord_raise]

/-- RECORD when RecordDecode's checks pass (R95, R96). -/
theorem execRecord_ok {s : State} {t : RawTime} (h : recordDecode s = .ok t) : execRecord s = .next { s with
    status := (s.status &&& 0xFFFF00CA#32) ||| 0x00000011#32
    error := {}
    record := (s.commitRecord t).record
    field := {} } := by
  rw [execRecord_eq, h, Attempt.settle, clearRecord_commit]

/-- The precondition (R86). -/
theorem recordDecode_notData {s : State} (h : flag frameValidBit s.status = false ∨ s.frame.hdrKind ≠ 0x04#32) :
    recordDecode s = .raised (.notData (flag frameValidBit s.status) s.frame.hdrKind) := by
  rw [recordDecode_eq, if_pos h]

section
variable {s : State} (hf : flag frameValidBit s.status = true) (hk : s.frame.hdrKind = 0x04#32)
include hf hk

/-- The size (R87). -/
theorem recordDecode_truncated (hl : s.outBuf.length < 409) :
    recordDecode s = .raised (.truncated 409 s.outBuf.length) := by
  rw [recordDecode_eq, if_neg (by simp [hf, hk]), if_pos hl]

/-- With the precondition and the size met, only the calendar is left to check (R89, R90). -/
theorem recordDecode_of_timeBytes {y mo d h mi sec : Byte} (hl : 409 ≤ s.outBuf.length)
    (hb : s.timeBytes y mo d h mi sec) :
    recordDecode s = if validDateTime y mo d h mi sec then .ok ⟨y, mo, d, h, mi, sec⟩
      else .raised (.invalidTimestamp y mo d h mi sec) := by
  obtain ⟨t, ht, hbytes⟩ := rawTimeOf_isSome (payload := s.outBuf) (by omega)
  obtain ⟨hb0, hb1, hb2, hb3, hb4, hb5⟩ := hb
  have hraw : t = ⟨y, mo, d, h, mi, sec⟩ := by
    cases t
    simpa [hb0, hb1, hb2, hb3, hb4, hb5, eq_comm] using hbytes
  rw [recordDecode_eq, if_neg (by simp [hf, hk]), if_neg (by omega), ht, hraw]
  simp only [valid_iff]

end

/-- Settles O33: the precondition is RECORD's first check; without a frame the FRAME group holds no kind (R28). -/
theorem recordNeedsADataFrame : Obligations.RecordNeedsADataFrame := by
  refine ⟨fun s h => ?_, fun s hinv hf => ?_⟩
  · calc exec .record s
      _ = execRecord s := rfl
      _ = _ := by rw [execRecord_raised (recordDecode_notData h), errStatus_notData, CmdError.detailA, CmdError.detailB]
  · rw [hinv.frame_invalid hf]

/-- Settles O34: the size is checked after the precondition and before any byte is read. -/
theorem recordNeeds409Bytes : Obligations.RecordNeeds409Bytes := by
  intro s hf hk hl
  calc exec .record s
    _ = execRecord s := rfl
    _ = _ := by
      rw [execRecord_raised (recordDecode_truncated hf hk hl), errStatus_truncated, CmdError.detailA, CmdError.detailB]

/-! ## The calendar -/

/-- Two bytes below a number are packed without overlap (R95, R111). -/
theorem pack3_toNat (a : Nat) (b c : Byte) :
    pack3 a b.toNat c.toNat = BitVec.ofNat 32 (a * 65536 + b.toNat * 256 + c.toNat) :=
  pack3_eq a b.toNat c.toNat b.isLt c.isLt

/-- The raw bytes are reported as they stand (R90, R111). -/
theorem execRecord_invalidTimestamp {s : State} {y mo d h mi sec : Byte}
    (hd : recordDecode s = .raised (.invalidTimestamp y mo d h mi sec)) :
    execRecord s = .next (s.recordFailed 0x00000305#32
      (BitVec.ofNat 32 (y.toNat * 65536 + mo.toNat * 256 + d.toNat))
      (BitVec.ofNat 32 (h.toNat * 65536 + mi.toNat * 256 + sec.toNat))) := by
  rw [execRecord_raised hd, errStatus_invalidTimestamp, CmdError.detailA, CmdError.detailB, pack3_toNat, pack3_toNat]

/-- Settles O35, by the calendar check, the one check left. -/
theorem recordRejectsInvalidTimestamps : Obligations.RecordRejectsInvalidTimestamps := by
  intro s y mo d h mi sec hf hk hl hb
  have hd := recordDecode_of_timeBytes hf hk hl hb
  refine ⟨fun hv => ?_, fun hv => ?_⟩
  · rw [if_neg hv] at hd
    exact execRecord_invalidTimestamp hd
  · rw [if_pos hv] at hd
    refine ⟨_, execRecord_ok hd, ?_, ?_⟩
    · simp [flag_mask_set, errBit]
    · simp [flag_mask_set, recValidBit]

theorem leap_iff (Y : Nat) : leap Y = true ↔ leapYear Y := by
  simp [leap, leapYear]

/-- The leap years up to a year, counted by R91's quotients, are one more in a leap year. -/
theorem leapYears_succ (Y : Nat) : (Y + 1) / 4 - (Y + 1) / 100 + (Y + 1) / 400 =
    Y / 4 - Y / 100 + Y / 400 + if leapYear (Y + 1) then 1 else 0 := by
  split_ifs with h <;> omega

/-- The years since 1970 have 365 days each and one more for each leap year; 477 leap years lie before 1970. -/
theorem daysToYear_eq (n : Nat) :
    daysToYear n + 477 = 365 * n + ((1969 + n) / 4 - (1969 + n) / 100 + (1969 + n) / 400) := by
  induction n with
  | zero => rfl
  | succ n ih =>
    have hleap := leapYears_succ (1969 + n)
    rw [show 1969 + n + 1 = 1970 + n by omega] at hleap
    rw [daysToYear, show 1969 + (n + 1) = 1970 + n by omega, hleap]
    split_ifs <;> omega

/-- The days before a month are those of a common year, and one more after a leap year's February. -/
theorem daysToMonth_eq (Y mo : Nat) (h1 : 1 ≤ mo) (h2 : mo ≤ 12) :
    daysToMonth Y (mo - 1) = cumDays.getD (mo - 1) 0 + if 2 < mo ∧ leap Y then 1 else 0 := by
  simp only [leap_iff]
  interval_cases mo <;> simp [daysToMonth, monthDays, cumDays] <;> split_ifs <;> rfl

/-- The day count of R91 is the number of days counted one by one. -/
theorem unixDays_eq_daysTo (y mo d : Nat) (h1 : 1 ≤ mo) (h2 : mo ≤ 12) :
    unixDays (2000 + y) mo d = daysToYear (30 + y) + daysToMonth (2000 + y) (mo - 1) + (d - 1) := by
  have hyear := daysToYear_eq (30 + y)
  have hmonth := daysToMonth_eq (2000 + y) mo h1 h2
  rw [show 1969 + (30 + y) = 2000 + y - 1 by omega] at hyear
  rw [hmonth, unixDays]
  omega

theorem RawTime.unix_eq_secondsSinceEpoch (t : RawTime) (h1 : 1 ≤ t.mo.toNat) (h2 : t.mo.toNat ≤ 12) :
    t.unix = secondsSinceEpoch t.y t.mo t.d t.h t.mi t.s := by
  rw [RawTime.unix, RawTime.year, Config.yearBase, unixDays_eq_daysTo _ _ _ h1 h2, secondsSinceEpoch]

/-! ## What RECORD commits -/

/-- The RECORD group of a decoded record in its six bytes (R91, R95). -/
theorem commitRecord_record_eq (s : State) {t : RawTime} (h1 : 1 ≤ t.mo.toNat) (h2 : t.mo.toNat ≤ 12) :
    (s.commitRecord t).record = recordGroupOf s.outBuf.length t.y t.mo t.d t.h t.mi t.s := by
  have hlo (n : Nat) : BitVec.ofNat 32 (n % 4294967296) = BitVec.ofNat 32 n :=
    BitVec.eq_of_toNat_eq (by simp)
  simp only [State.commitRecord, recordGroupOf, ← t.unix_eq_secondsSinceEpoch h1 h2, hlo, pack3_toNat,
    Nat.shiftRight_eq_div_pow, RawTime.year]
  rfl

/-- An error of RECORD keeps FRAME_VALID: it sets DONE, ERR and ERR_CODE alone (R96, R110). -/
theorem recordFailed_frameValid (s : State) (c : Byte) (a b : Word) :
    flag frameValidBit (s.recordFailed (errStatus c) a b).status = flag frameValidBit s.status := by
  simp [State.recordFailed, flag_mask_set, errStatus, frameValidBit]

/-- RECORD ends with REC_VALID set or in one of its error states (R95, R110). -/
theorem execRecord_next_cases {s t : State} (h : execRecord s = .next t) :
    flag recValidBit t.status = true ∨ ∃ e : CmdError, t = s.recordFailed (errStatus e.code) e.detailA e.detailB := by
  rw [execRecord_eq] at h
  obtain ⟨x, -, rfl⟩ | ⟨e, -, rfl⟩ := Attempt.settle_eq_next.1 h
  · left
    simp [setFlag, flag, recValidBit, doneBit]
  · exact .inr ⟨e, clearRecord_raise s e⟩

/-- Settles O36: a valid month lies in R91's table, so the group committed is that of the counted days; an error state
of RECORD keeps the frame. -/
theorem recordCommitsTheTimestamp : Obligations.RecordCommitsTheTimestamp := by
  refine ⟨fun s y mo d h mi sec hf hk hl hb hv => ?_, fun s t h hrec => ?_⟩
  · have hd := recordDecode_of_timeBytes hf hk hl hb
    rw [if_pos hv] at hd
    obtain ⟨⟨h1, h2⟩, -⟩ := hv
    calc exec .record s
      _ = execRecord s := rfl
      _ = _ := by rw [execRecord_ok hd, commitRecord_record_eq s h1 h2]
  · obtain ⟨e, rfl⟩ := (execRecord_next_cases h).resolve_left (by simp [hrec])
    exact ⟨rfl, rfl, rfl, recordFailed_frameValid ..⟩

end Sys2Proof.Machine
end

section
/-! SUPPORT. The command FIELD with a decoded record: a number is reported scaled, a byte range by its place alone
(44_field_select.md R97 to R103). -/
namespace Sys2Proof.Machine

/-! ## The rows of the layout -/

/-- EXTRA_LEN is the width of EXTRA alone (R97). -/
theorem layout_eq_of_ne {sel : Byte} (h : sel ≠ 0x28#8) (e e' : Nat) : layout e sel = layout e' sel := by
  rw [layout, layout, if_neg h, if_neg h]

/-- No named field reaches past the fixed record; EXTRA begins where it ends (R60, R87). -/
theorem fieldRow_end_le : ∀ r ∈ allFieldRows, r.off + r.width ≤ 409 := by decide

theorem numericRow_mem : ∀ p ∈ [(numericRows0, 0), (numericRows1, 1), (numericRows2, 2)], ∀ r ∈ p.1,
    r ∈ allFieldRows ∧ r ∉ byteRows ∧ r.sel ≠ 0x28#8 := by decide

theorem byteRow_mem : ∀ r ∈ byteRows, r ∈ allFieldRows ∧ r.sel ≠ 0x28#8 := by decide

/-- The layout's row of a numeric field has its place, its exponent and a number type (R60). -/
theorem layout_numericRow {p : List FieldClaim × Nat}
    (hp : p ∈ [(numericRows0, 0), (numericRows1, 1), (numericRows2, 2)]) {r : FieldClaim} (hr : r ∈ p.1) (e : Nat) :
    ∃ row, layout e r.sel = some row ∧ row.off = r.off ∧ row.width = r.width ∧ row.k = p.2 ∧ row.type ≠ .bytes := by
  obtain ⟨hmem, hbytes, hsel⟩ := numericRow_mem p hp r hr
  obtain ⟨row, hrow, hoff, hwidth, hk0, hk1, hk2, htype, -⟩ := layout_allFieldRows r hmem
  refine ⟨row, (layout_eq_of_ne hsel e 0).trans hrow, hoff, hwidth, ?_, ?_⟩
  · simp only [List.mem_cons, List.not_mem_nil, or_false] at hp
    obtain rfl | rfl | rfl := hp
    · exact hk0 hr
    · exact hk1 hr
    · exact hk2 hr
  · exact fun h => (htype.1 h).elim hbytes hsel

/-- The layout's row of a byte range has its place and the type of one (R60). -/
theorem layout_byteRow {r : FieldClaim} (hr : r ∈ byteRows) (e : Nat) :
    ∃ row, layout e r.sel = some row ∧ row.off = r.off ∧ row.width = r.width ∧ row.type = .bytes := by
  obtain ⟨hmem, hsel⟩ := byteRow_mem r hr
  obtain ⟨row, hrow, hoff, hwidth, -, -, -, htype, -⟩ := layout_allFieldRows r hmem
  exact ⟨row, (layout_eq_of_ne hsel e 0).trans hrow, hoff, hwidth, htype.2 (.inl hr)⟩

/-! ## FIELD with a decoded record -/

/-- FIELD when its checks pass (R103). -/
theorem fieldCommand_ok {s : State} {sel : Byte} {f : FieldGroup} (h : fieldSelect s sel = .ok f) :
    fieldCommand sel s = .next (s.fieldEnd 0x00000021#32 {} f) := by
  rw [fieldCommand_eq, h, Attempt.settle, clearField_commit]

section
variable {s : State} {sel : Byte} {row : FieldRow} (hv : flag recValidBit s.status = true)
  (hl : layout s.record.extraLen.toNat sel = some row)
include hv hl

/-- A byte range reports its place and reads no byte (R101). -/
theorem fieldCommand_bytes (ht : row.type = .bytes) :
    fieldCommand sel s = .next (s.fieldEnd 0x00000021#32 {} (bytesField sel row)) :=
  fieldCommand_ok (by simp [fieldSelect, hl, hv, ht])

/-- A number that lies in OUT_BUF is read and scaled (R98, R99). -/
theorem fieldCommand_number (ht : row.type ≠ .bytes) (hb : row.off + row.width ≤ s.outBuf.length) :
    fieldCommand sel s = .next (s.fieldEnd 0x00000021#32 {}
      (numberField sel row (be (slice s.outBuf row.off row.width)))) :=
  fieldCommand_ok (by simp [fieldSelect, hl, hv, ht, hb])

end

/-- The group of a number is that of its row (R98, R99). -/
theorem numberField_eq_numberGroupOf {r : FieldClaim} {row : FieldRow} (hoff : row.off = r.off)
    (hwidth : row.width = r.width) (raw : Nat) : numberField r.sel row raw = numberGroupOf r row.k raw := by
  rw [numberField, numberGroupOf, hoff, hwidth]

/-- Settles O38: the layout's row of a numeric field ends inside the 409 bytes, so its number is read, and the
shift-and-or reading is the positional value. -/
theorem numericFieldsAreReported : Obligations.NumericFieldsAreReported := by
  intro p hp r hr i hi s hv hlen
  obtain ⟨hmem, -⟩ := numericRow_mem p hp r hr
  obtain ⟨row, hrow, hoff, hwidth, hk, htype⟩ := layout_numericRow hp hr s.record.extraLen.toNat
  have hin : row.off + row.width ≤ s.outBuf.length := by
    rw [hoff, hwidth]
    exact (fieldRow_end_le r hmem).trans hlen
  rw [exec_fieldRow r hmem i hi, fieldCommand_number hv hrow htype hin, numberField_eq_numberGroupOf hoff hwidth,
    be_eq_beValue, slice, hoff, hwidth, hk]

/-- EXTRA_LEN is what a decoded record leaves of OUT_BUF (R28 (b), R97). -/
theorem State.Inv.extra_end {s : State} (hinv : s.Inv) (hv : flag recValidBit s.status = true) :
    409 + s.record.extraLen.toNat = s.outBuf.length := by
  obtain ⟨-, -, hlen⟩ := hinv.rec_valid hv
  omega

/-- EXTRA's width register is EXTRA_LEN itself (R101). -/
theorem bytesField_extra (e : Word) : bytesField 0x28#8 (extraRow e.toNat) =
    { fSel := 0x28#32, fOff := 409#32, fWidth := e, fKind := 1#32 } := by
  simp [bytesField, extraRow]

/-- Settles O39: the layout's row of a byte range has its place and EXTRA's has EXTRA_LEN for a width; a decoded record
has all 409 bytes and EXTRA_LEN more in OUT_BUF. -/
theorem byteRangesReportTheirPlace : Obligations.ByteRangesReportTheirPlace := by
  refine ⟨fun r hr i hi s hv => ⟨?_, fun hinv => ?_⟩, fun i hi s hv => ⟨?_, fun hinv => hinv.extra_end hv⟩⟩
  · obtain ⟨row, hrow, hoff, hwidth, htype⟩ := layout_byteRow hr s.record.extraLen.toNat
    rw [exec_fieldRow r (byteRow_mem r hr).1 i hi, fieldCommand_bytes hv hrow htype, bytesField, hoff, hwidth]
  · have hend := fieldRow_end_le r (byteRow_mem r hr).1
    have hlen := hinv.extra_end hv
    omega
  · rw [exec_fieldRow ⟨.fieldExtra, 0x28#8, 409, 0⟩ (by decide) i hi, fieldCommand_bytes hv rfl rfl, bytesField_extra]

end Sys2Proof.Machine
end

section
/-! SUPPORT. The control commands NOP and CLEAR, and DECODE as FRAME followed by RECORD (45_control.md R105 to R107). -/
namespace Sys2Proof.Machine

/-! ## NOP and CLEAR -/

/-- Settles O15: NOP is the setting of DONE alone, and ARG 1 makes its word an illegal one. -/
theorem nopOnlySetsDone : Obligations.NopOnlySetsDone :=
  ⟨fun _ => rfl, rfl, (decode_error_iff _).2 (by decide)⟩

/-- Settles O16: the four clear operations and DONE come to the cleared state. -/
theorem clearZeroesEveryResult : Obligations.ClearZeroesEveryResult := by
  refine ⟨fun s => ?_, rfl⟩
  calc exec .clear s
    _ = .next s.clearAll.setDone := rfl
    _ = _ := by rw [clearAll_done]

/-! ## Setting DONE before a command's end -/

theorem setFlag_comm (m n : Nat) (st : Word) : setFlag m (setFlag n st) = setFlag n (setFlag m st) := by
  simp only [setFlag, BitVec.or_assoc, BitVec.or_comm (1#32 <<< n)]

theorem setFlag_idem (n : Nat) (st : Word) : setFlag n (setFlag n st) = setFlag n st := by
  simp only [setFlag, BitVec.or_assoc, BitVec.or_self]

/-- Raising writes ERR and ERR_CODE, so it does not matter whether DONE is set before. -/
theorem statusRaise_setDone (c : Byte) (st : Word) :
    statusRaise c (setFlag doneBit st) = setFlag doneBit (statusRaise c st) := by
  rw [statusRaise_eq, statusRaise_eq, setFlag_eq_mask, setFlag_eq_mask, BitVec.and_or_distrib_right,
    show (1#32 <<< doneBit) &&& 0xFFFF00FB#32 = 1#32 <<< doneBit by decide]
  simp only [BitVec.or_assoc, BitVec.or_comm (1#32 <<< doneBit)]

theorem State.setDone_raise (s : State) (e : CmdError) : (s.setDone.raise e).setDone = (s.raise e).setDone := by
  simp only [State.setDone, State.raise, statusRaise_setDone, setFlag_idem]

theorem State.setDone_commitRecord (s : State) (t : RawTime) :
    (s.setDone.commitRecord t).setDone = (s.commitRecord t).setDone := by
  simp only [State.setDone, State.commitRecord, setFlag_comm recValidBit, setFlag_idem]

/-- A record attempt sets DONE at its end, so it does not matter whether DONE is set at its start (R104). -/
theorem Attempt.settle_setDone_commitRecord (a : Attempt RawTime) (s : State) :
    a.settle s.setDone State.commitRecord = a.settle s State.commitRecord := by
  cases a with
  | ok x => simp only [Attempt.settle, State.setDone_commitRecord]
  | raised e => simp only [Attempt.settle, State.setDone_raise]
  | refused r => rfl
  | fault f => rfl

/-! ## RECORD from the state FRAME leaves -/

/-- The clear operations of RECORD have nothing to clear after FRAME (R84, R96). -/
theorem clearRecord_of_commitFrame (s : State) (f : FrameResult) :
    (s.clearAll.commitFrame f).setDone.clearErr.clearRec.clearField = (s.clearAll.commitFrame f).setDone := by
  have hstatus : ((s.status &&& 0xFFFF00C2#32) ||| 0x00000009#32) &&& 0xFFFF00CB#32 =
      (s.status &&& 0xFFFF00C2#32) ||| 0x00000009#32 := by
    rw [BitVec.and_or_distrib_right, BitVec.and_assoc]
    rfl
  rw [clearAll_commitFrame]
  simp only [State.clearErr, State.clearRec, State.clearField, State.clearedWith, status_clearRecord, hstatus]

/-- RECORD on the state of a decoded frame is the second half of DECODE (R107). -/
theorem execRecord_of_commitFrame (s : State) (f : FrameResult) :
    execRecord (s.clearAll.commitFrame f).setDone =
      (recordDecode (s.clearAll.commitFrame f)).settle (s.clearAll.commitFrame f) State.commitRecord := by
  have hvalid : flag frameValidBit (s.clearAll.commitFrame f).setDone.status =
      flag frameValidBit (s.clearAll.commitFrame f).status := by
    simp [setFlag, flag_or, doneBit, frameValidBit]
  rw [execRecord_eq, clearRecord_of_commitFrame, Attempt.settle_setDone_commitRecord,
    recordDecode_congr hvalid rfl rfl]

/-! ## DECODE -/

/-- R107, by whether FRAME decoded a frame or raised an error, which leaves no kind to go on with. -/
theorem execDecode_of_execFrame_next {s t : State} (h : execFrame s = .next t) :
    execDecode s = if flag frameValidBit t.status = true ∧ t.frame.hdrKind = 0x04#32 then execRecord t
      else .next t := by
  rw [execFrame_eq] at h
  obtain ⟨f, hf, rfl⟩ | ⟨e, he, rfl⟩ := Attempt.settle_eq_next.1 h
  · have hvalid : flag frameValidBit (s.clearAll.commitFrame f).setDone.status = true := by
      simp [setFlag, flag, doneBit, frameValidBit]
    simp only [execDecode_eq, hf, execRecord_of_commitFrame, hvalid, true_and, State.setDone_frame]
  · have hkind : (s.clearAll.raise e).setDone.frame.hdrKind ≠ 0x04#32 := by simp
    simp only [execDecode_eq, he, hkind, and_false, if_false]

/-- What FRAME may not read DECODE may not read (R118 F7). -/
theorem execDecode_of_execFrame_refused {s : State} {r : Refusal} (h : execFrame s = .refused r) :
    execDecode s = .refused r := by
  rw [execFrame_eq, Attempt.settle_eq_refused] at h
  simp only [execDecode_eq, h]

/-- DECODE ends in a next state only where FRAME does. -/
theorem exists_execFrame_next {s t : State} (h : execDecode s = .next t) : ∃ u, execFrame s = .next u := by
  cases hf : execFrame s with
  | next u => exact ⟨u, rfl⟩
  | refused r =>
    rw [execDecode_of_execFrame_refused hf] at h
    cases h
  | fault f =>
    rw [execFrame_eq, Attempt.settle_eq_fault] at hf
    exact absurd hf (frameDecode_ne_fault s f)

/-! ## The errors of DECODE -/

theorem errCode_setFlag {n : Nat} (hn : n < 8) (st : Word) : errCode (setFlag n st) = errCode st := by
  have hbit : errCode (1#32 <<< n) = 0x00#8 := by interval_cases n <;> rfl
  rw [setFlag, errCode_or, hbit, BitVec.or_zero]

/-- A command that starts with ERR_CODE 0 ends with a code only by raising its error (R110). -/
theorem Attempt.settle_errCode_ne {α : Type} {a : Attempt α} {s t : State} {c : State → α → State} {k : Byte}
    (h : a.settle s c = .next t) (hk : k ≠ 0x00#8) (hstart : errCode s.status = 0x00#8)
    (hcommit : ∀ x, errCode (c s x).status = errCode s.status) (hraise : ∀ e, a = .raised e → e.code ≠ k) :
    errCode t.status ≠ k := by
  obtain ⟨x, -, rfl⟩ | ⟨e, he, rfl⟩ := Attempt.settle_eq_next.1 h
  · rw [State.setDone_status, errCode_setFlag (by decide), hcommit, hstart]
    exact hk.symm
  · rw [State.setDone_status, errCode_setFlag (by decide), State.raise_status, errCode_statusRaise]
    exact hraise e he

/-- RecordDecode on a decoded `Data` frame fails on its size or its timestamp (R86, R87, R90). -/
theorem recordDecode_raised_of_data {s : State} {e : CmdError} (hv : flag frameValidBit s.status = true)
    (hk : s.frame.hdrKind = 0x04#32) (h : recordDecode s = .raised e) : e.code = 0x01#8 ∨ e.code = 0x03#8 := by
  obtain ⟨hno, -⟩ | ⟨-, -, ⟨-, hd⟩ | ⟨-, t, -, -, ⟨-, hd⟩ | ⟨-, hd⟩⟩⟩ := recordDecode_cases s
  · simp [hv, hk] at hno
  · cases hd.symm.trans h
    exact .inl rfl
  · cases hd.symm.trans h
  · cases hd.symm.trans h
    exact .inr rfl

/-- FRAME ends in no error but its own (R79, R80, R111). -/
theorem execFrame_errCode_ne_notData {s t : State} (h : execFrame s = .next t) : errCode t.status ≠ 0x05#8 := by
  have hstart : errCode s.clearAll.status = 0x00#8 := by
    rw [State.clearAll_status, status_clearAll, errCode_and]
    exact BitVec.and_zero
  rw [execFrame_eq] at h
  refine Attempt.settle_errCode_ne h (by decide) hstart (fun f => errCode_setFlag (by decide) _) fun e he => ?_
  obtain hc | hc | hc := frameDecode_raised he <;> rw [hc] <;> decide

/-- RECORD on a decoded `Data` frame ends in no error but the size's or the timestamp's (R86, R87, R90, R111). -/
theorem execRecord_errCode_ne_notData {s t : State} (hv : flag frameValidBit s.status = true)
    (hk : s.frame.hdrKind = 0x04#32) (h : execRecord s = .next t) : errCode t.status ≠ 0x05#8 := by
  have hstart : errCode s.clearErr.clearRec.clearField.status = 0x00#8 := by
    rw [State.clearField_status, State.clearRec_status, State.clearErr_status, status_clearRecord, errCode_and]
    exact BitVec.and_zero
  rw [execRecord_eq] at h
  refine Attempt.settle_errCode_ne h (by decide) hstart (fun r => errCode_setFlag (by decide) _) fun e he => ?_
  obtain hc | hc := recordDecode_raised_of_data hv hk he <;> rw [hc] <;> decide

/-- `NotData` cannot occur: RECORD runs only where its precondition holds (R107). -/
theorem execDecode_errCode_ne_notData {s t : State} (h : execDecode s = .next t) : errCode t.status ≠ 0x05#8 := by
  obtain ⟨u, hu⟩ := exists_execFrame_next h
  rw [execDecode_of_execFrame_next hu] at h
  split at h
  case isTrue hdata =>
    obtain ⟨hv, hk⟩ := hdata
    exact execRecord_errCode_ne_notData hv hk h
  case isFalse =>
    cases h
    exact execFrame_errCode_ne_notData hu

/-- Settles O44, by what FRAME comes to. -/
theorem decodeIsFrameThenRecord : Obligations.DecodeIsFrameThenRecord :=
  ⟨fun _ _ h => execDecode_of_execFrame_next h, fun _ _ h => execDecode_of_execFrame_refused h,
    fun _ _ h => execDecode_errCode_ne_notData h, rfl⟩

end Sys2Proof.Machine
end

section
/-! SUPPORT. A reset between two host accesses (70_reset_and_hazards.md R125). -/
namespace Sys2Proof.Machine

/-- A reset of the block leaves every register as the state after reset has it (R33, R125). -/
@[simp] theorem State.resetCore_readReg (s : State) (r : Reg) : s.resetCore.readReg r = 0#32 := by
  cases r <;> rfl

/-- Settles O8: the step of a reset is the reset of the block. -/
theorem resetActionClearsTheBlock : Obligations.ResetActionClearsTheBlock := fun _ _ h =>
  ⟨_, step_cons h, State.resetCore_readReg _, fun _ => rfl, rfl⟩

end Sys2Proof.Machine
end

section
/-! SUPPORT. No payload byte becomes visible for a frame whose checksum does not match (70_reset_and_hazards.md
R132): such an input never decodes, and an error of FrameDecode leaves every result group cleared. -/
namespace Sys2Proof.Machine

/-! ## The error of an input whose checksum does not match -/

/-- The error of the first failing check of R79 and R80, for input bytes whose checksum does not match. -/
def frameRejection (bs : List Byte) : CmdError :=
  if bs.length < 10 then .truncated 10 bs.length
  else if bs.length < beValue ((bs.drop 4).take 2) + 8 then
    .truncated (beValue ((bs.drop 4).take 2) + 8) bs.length
  else if beValue ((bs.drop 4).take 2) + 8 < bs.length then
    .lengthMismatch (beValue ((bs.drop 4).take 2) + 8) bs.length
  else .checksumMismatch (BitVec.ofNat 16 (beValue (bs.drop (bs.length - 2)))) (crc16 (bs.take (bs.length - 2)))

section
variable (i0 i1 p0 p1 d0 d1 unit kind c0 c1 : Byte) (pl : List Byte)

/-- A wire frame without its last two bytes is its header and payload (R57, R80). -/
theorem take_wire : (wireBody i0 i1 p0 p1 d0 d1 unit kind pl ++ [c0, c1]).take
    ((wireBody i0 i1 p0 p1 d0 d1 unit kind pl ++ [c0, c1]).length - 2) = wireBody i0 i1 p0 p1 d0 d1 unit kind pl := by
  simp

/-- The received checksum is the last two bytes of a wire frame (R57, R80). -/
theorem drop_wire : (wireBody i0 i1 p0 p1 d0 d1 unit kind pl ++ [c0, c1]).drop
    ((wireBody i0 i1 p0 p1 d0 d1 unit kind pl ++ [c0, c1]).length - 2) = [c0, c1] := by
  simp

/-- The rejection of a wire frame, check by check (R79, R80). -/
theorem frameRejection_wire : frameRejection (wireBody i0 i1 p0 p1 d0 d1 unit kind pl ++ [c0, c1]) =
    if pl.length + 2 < be [d0, d1] then .truncated (be [d0, d1] + 8) (pl.length + 10)
    else if be [d0, d1] < pl.length + 2 then .lengthMismatch (be [d0, d1] + 8) (pl.length + 10)
    else .checksumMismatch (c0 ++ c1) (crc16 (wireBody i0 i1 p0 p1 d0 d1 unit kind pl)) := by
  have hlen : (wireBody i0 i1 p0 p1 d0 d1 unit kind pl ++ [c0, c1]).length = pl.length + 10 := by simp [wireBody]
  have hdl : ((wireBody i0 i1 p0 p1 d0 d1 unit kind pl ++ [c0, c1]).drop 4).take 2 = [d0, d1] := rfl
  rw [frameRejection, take_wire, drop_wire, hdl, hlen, ← be_eq_beValue, ← be_eq_beValue, ofNat16_be_pair,
    if_neg (by omega)]
  exact if_congr (by omega) rfl (if_congr (by omega) rfl rfl)

end

/-- With a checksum that does not match FrameDecode ends in an error, whatever the lengths say (R79, R80). -/
theorem frameDecode_of_crc16_ne {s : State} {bs : List Byte} (hin : s.inputIs bs)
    (hcrc : crc16 (bs.take (bs.length - 2)) ≠ BitVec.ofNat 16 (beValue (bs.drop (bs.length - 2)))) :
    frameDecode s = .raised (frameRejection bs) := by
  by_cases h10 : bs.length < 10
  · rw [frameRejection, if_pos h10, ← hin.1]
    exact frameDecode_of_lt_minFrame (hin.1 ▸ h10)
  · obtain ⟨i0, i1, p0, p1, d0, d1, unit, kind, pl, c0, c1, rfl⟩ := exists_wire bs (Nat.not_lt.1 h10)
    rw [take_wire, drop_wire, ← be_eq_beValue, ofNat16_be_pair] at hcrc
    rw [frameDecode_wire hin, frameRejection_wire, if_pos hcrc.symm, apply_ite Attempt.raised, apply_ite Attempt.raised]

/-! ## What an error of FrameDecode leaves visible -/

/-- No error of a command sets the flag of a result group (R17, R110). -/
theorem frameFailed_flag {n : Nat} (hn : n ∈ [frameValidBit, recValidBit, fieldValidBit]) (s : State) (c : Byte)
    (a b : Word) : flag n (s.frameFailed (errStatus c) a b).status = false := by
  have hmask : ∀ m ∈ [frameValidBit, recValidBit, fieldValidBit],
      m < 8 ∧ (0xFFFF00C2#32).getLsbD m = false ∧ (5#32).getLsbD m = false := by decide
  obtain ⟨h8, hkeep, h5⟩ := hmask n hn
  rw [State.frameFailed, State.clearedWith, flag_mask_set, hkeep, errStatus, BitVec.getLsbD_or, h5,
    BitVec.getLsbD_shiftLeft]
  simp [h8]

/-- Two bytes are 16 bits: as a checksum and widened to a register they are the same number (R10, R15). -/
theorem setWidth_ofNat_beValue {l : List Byte} (h : l.length ≤ 2) :
    (BitVec.ofNat 16 (beValue l)).setWidth 32 = BitVec.ofNat 32 (beValue l) := by
  have hlt : beValue l < 2 ^ 16 := by
    calc beValue l
      _ = be l := (be_eq_beValue l).symm
      _ < 256 ^ l.length := be_lt l
      _ ≤ 256 ^ 2 := Nat.pow_le_pow_right (by decide) h
  apply BitVec.eq_of_toNat_eq
  rw [BitVec.toNat_setWidth, BitVec.toNat_ofNat, BitVec.toNat_ofNat, Nat.mod_eq_of_lt hlt]

/-- Settles O32: FrameDecode ends in the rejection of the input, whose end state holds no part of the frame; ERR_A and
ERR_B hold lengths or checksums. -/
theorem noPayloadBeforeTheChecksum : Obligations.NoPayloadBeforeTheChecksum := by
  intro i hi s bs hin hcrc
  have hraised := frameDecode_of_crc16_ne hin hcrc
  refine ⟨_, exec_of_frameDecode_raised hi hraised, rfl, rfl, rfl, rfl, frameFailed_flag (by decide) ..,
    frameFailed_flag (by decide) .., frameFailed_flag (by decide) .., ?_, ?_⟩
  · rw [frameFailed_errCode]
    obtain hc | hc | hc := frameDecode_raised hraised <;> rw [hc] <;> decide
  · have hrx := setWidth_ofNat_beValue (l := bs.drop (bs.length - 2)) (by rw [List.length_drop]; omega)
    rw [← hin.ofNat_length, ← hrx, frameRejection]
    split_ifs <;> simp only [errStatus_truncated, errStatus_lengthMismatch, errStatus_checksumMismatch,
      CmdError.detailA, CmdError.detailB]

end Sys2Proof.Machine
end

section
/-! SUPPORT. The command words and the commands they stand for, in both directions (30_encoding.md R53, R54, R64). -/
namespace Sys2Proof.Machine

/-- The FIELD word of a selector decodes to the command of that selector (R54, R64). -/
theorem decode_fieldWord (sel : Byte) : decode (fieldWord sel) = .ok (fieldInstr sel) := by
  rw [fieldWord, decode_commandWord]
  rfl

/-- Settles O1: FIELD words by their selector, where the generic row keeps those no named row has; the seven plain words
by evaluation. -/
theorem encodedCommandDecodesBack : Obligations.EncodedCommandDecodesBack := by
  intro i hi
  cases i
  case field sel =>
    have hsel : 0x29 ≤ sel.toNat := of_decide_eq_true hi
    rw [encode, decode_fieldWord, fieldInstr_undefined hsel]
  case nop | crc16 | xor | frame | record | decode | clear => rfl
  all_goals exact decode_fieldWord _

/-- A command without operand is decoded from a word with ARG 0 alone (R53, R56). -/
theorem noArg_eq_ok {op arg : Byte} {i j : Instr} (h : noArg (commandWord op arg) i = .ok j) :
    arg = 0#8 ∧ j = i := by
  rw [noArg_commandWord] at h
  split_ifs at h with harg
  exact ⟨harg, (Except.ok.inj h).symm⟩

/-- What a word with its reserved bits 0 decodes to has that word (R53, R54, R64). -/
theorem encode_of_decode_commandWord {op arg : Byte} {i : Instr} (h : decode (commandWord op arg) = .ok i) :
    i.wellFormed = true ∧ encode i = commandWord op arg := by
  rw [decode_commandWord] at h
  split at h
  case h_6 hop =>
    cases h
    rw [show op = 0x05#8 from BitVec.eq_of_toNat_eq hop]
    exact fieldInstr_encode arg
  case h_9 => cases h
  all_goals
    rename_i hop
    obtain ⟨rfl, rfl⟩ := noArg_eq_ok h
    refine ⟨rfl, ?_⟩
    rw [encode]
    exact congrArg (commandWord · 0#8) (BitVec.eq_of_toNat_eq hop.symm)

/-- Settles O2: only a word with its reserved bits 0 decodes, and such a word is that of its OP and ARG. -/
theorem decodedWordEncodesBack : Obligations.DecodedWordEncodesBack := by
  intro w i h
  by_cases hhigh : highField w = 0#16
  · rw [eq_commandWord hhigh] at h ⊢
    exact encode_of_decode_commandWord h
  · rw [decode_of_highField hhigh] at h
    cases h

/-- Settles O4, word by word. -/
theorem specWordsDecode : Obligations.SpecWordsDecode :=
  ⟨rfl, rfl, rfl, rfl, rfl, rfl, rfl, rfl, rfl⟩

end Sys2Proof.Machine
end

section
/-! SUPPORT. The states FRAME, RECORD and FIELD end in, and the STATUS bits that no command writes (10_state.md R17,
45_control.md R104). -/
namespace Sys2Proof.Machine

/-! ## Where a command ends, by the check that decides it -/

/-- FRAME commits the frame it decoded or ends with an error of FrameDecode (R82, R84). -/
theorem execFrame_eq_next {s t : State} (h : execFrame s = .next t) :
    (∃ f, frameDecode s = .ok f ∧
      t = { s.clearedWith 0x00000009#32 with frame := (s.commitFrame f).frame, outBuf := f.payload }) ∨
    ∃ e, frameDecode s = .raised e ∧ t = s.frameFailed (errStatus e.code) e.detailA e.detailB := by
  rw [execFrame_eq] at h
  obtain ⟨f, hf, rfl⟩ | ⟨e, he, rfl⟩ := Attempt.settle_eq_next.1 h
  · exact .inl ⟨f, hf, clearAll_commitFrame s f⟩
  · exact .inr ⟨e, he, clearAll_raise s e⟩

/-- RECORD commits the record it decoded or ends with an error of RecordDecode (R95, R96). -/
theorem execRecord_eq_next {s t : State} (h : execRecord s = .next t) :
    (∃ x, recordDecode s = .ok x ∧ t = { s with
      status := (s.status &&& 0xFFFF00CA#32) ||| 0x00000011#32
      error := {}
      record := (s.commitRecord x).record
      field := {} }) ∨
    ∃ e, recordDecode s = .raised e ∧ t = s.recordFailed (errStatus e.code) e.detailA e.detailB := by
  rw [execRecord_eq] at h
  obtain ⟨x, hx, rfl⟩ | ⟨e, he, rfl⟩ := Attempt.settle_eq_next.1 h
  · exact .inl ⟨x, hx, clearRecord_commit s x⟩
  · exact .inr ⟨e, he, clearRecord_raise s e⟩

/-- FIELD commits the field it selected or ends with BadSelector or NoRecord (R103). -/
theorem fieldCommand_eq_next {sel : Byte} {s t : State} (h : fieldCommand sel s = .next t) :
    (∃ f, fieldSelect s sel = .ok f ∧ t = s.fieldEnd 0x00000021#32 {} f) ∨
    ∃ e, fieldSelect s sel = .raised e ∧
      t = s.fieldEnd (errStatus e.code) { errA := e.detailA, errB := e.detailB } {} := by
  rw [fieldCommand_eq] at h
  obtain ⟨f, hf, rfl⟩ | ⟨e, he, rfl⟩ := Attempt.settle_eq_next.1 h
  · exact .inl ⟨f, hf, clearField_commit s f⟩
  · exact .inr ⟨e, he, clearField_raise s e⟩

/-- DECODE ends where FRAME does, or where RECORD does from there (R107). -/
theorem execDecode_eq_next {s t : State} (h : execDecode s = .next t) :
    ∃ u, execFrame s = .next u ∧ (t = u ∨ execRecord u = .next t) := by
  obtain ⟨u, hu⟩ := exists_execFrame_next h
  rw [execDecode_of_execFrame_next hu] at h
  refine ⟨u, hu, ?_⟩
  split at h
  · exact .inr h
  · cases h; exact .inl rfl

/-- CRC16 and XOR end only with a written input (R70, R76). -/
theorem execCrc16_eq_next {s t : State} (h : execCrc16 s = .next t) : ∃ bs, s.inputIs bs ∧
    t = { s.clearedWith 0x00000001#32 with frame := { crcCalc := (crc16 bs).setWidth 32 } } := by
  rw [execCrc16_eq] at h
  split at h
  case h_1 => cases h
  case h_2 bs hb => exact ⟨bs, State.inputIs_of_bytes hb, by simpa using h.symm⟩

theorem execXor_eq_next {s t : State} (h : execXor s = .next t) : ∃ bs, s.inputIs bs ∧
    t = { s.clearedWith 0x00000001#32 with outBuf := mask bs } := by
  rw [execXor_eq] at h
  split at h
  case h_1 => cases h
  case h_2 bs hb => exact ⟨bs, State.inputIs_of_bytes hb, by simpa using h.symm⟩

theorem execClear_eq (s : State) : execClear s = .next (s.clearedWith 0x00000001#32) := by
  rw [execClear, clearAll_done]

/-! ## The fields of an error's STATUS -/

/-- An error sets DONE and ERR and no other flag (R110). -/
@[simp] theorem errStatus_getLsbD {n : Nat} (hn : n < 8) (c : Byte) : (errStatus c).getLsbD n = (5#32).getLsbD n := by
  rw [errStatus, BitVec.getLsbD_or, BitVec.getLsbD_shiftLeft]
  simp [hn]

theorem errCode_errStatus (c : Byte) : errCode (errStatus c) = c := by
  revert c; decide +kernel

theorem errStatus_reserved (c : Byte) : errStatus c &&& 0xFFFF00C2#32 = 0#32 := by
  revert c; decide +kernel

/-! ## DONE, BUSY and the reserved bits -/

/-- `t` ends a command that began in `s`, as far as BUSY, the reserved bits and DONE go (R17, R104). -/
structure State.EndsCommand (s t : State) : Prop where
  reserved : t.status &&& 0xFFFF00C2#32 = s.status &&& 0xFFFF00C2#32
  done : flag doneBit t.status = true

theorem State.EndsCommand.trans {s u t : State} (h : s.EndsCommand u) (h' : u.EndsCommand t) : s.EndsCommand t :=
  ⟨h'.reserved.trans h.reserved, h'.done⟩

/-- A command that keeps the bits of `m` and sets those of `v` ends so when BUSY and the reserved bits are in `m` alone
and DONE is in `v`. -/
theorem State.EndsCommand.of_status {s t : State} {m v : Word} (hst : t.status = (s.status &&& m) ||| v)
    (hm : m &&& 0xFFFF00C2#32 = 0xFFFF00C2#32) (hv : v &&& 0xFFFF00C2#32 = 0#32) (hd : v.getLsbD 0 = true) :
    s.EndsCommand t := by
  refine ⟨?_, ?_⟩
  · rw [hst, BitVec.and_or_distrib_right, BitVec.and_assoc, hm, hv, BitVec.or_zero]
  · rw [hst, flag_mask_set, doneBit, hd, Bool.or_true]

/-- An error ends a command that keeps the bits of `m`. -/
theorem State.EndsCommand.of_error {s t : State} {m : Word} {c : Byte}
    (hst : t.status = (s.status &&& m) ||| errStatus c) (hm : m &&& 0xFFFF00C2#32 = 0xFFFF00C2#32) :
    s.EndsCommand t :=
  .of_status hst hm (errStatus_reserved c) (errStatus_getLsbD (by decide) c)

theorem execFrame_endsCommand {s t : State} (h : execFrame s = .next t) : s.EndsCommand t := by
  obtain ⟨f, -, rfl⟩ | ⟨e, -, rfl⟩ := execFrame_eq_next h
  · exact .of_status (v := 0x00000009#32) rfl (by decide) (by decide) (by decide)
  · exact .of_error rfl (by decide)

theorem execRecord_endsCommand {s t : State} (h : execRecord s = .next t) : s.EndsCommand t := by
  obtain ⟨x, -, rfl⟩ | ⟨e, -, rfl⟩ := execRecord_eq_next h
  · exact .of_status (v := 0x00000011#32) rfl (by decide) (by decide) (by decide)
  · exact .of_error rfl (by decide)

theorem fieldCommand_endsCommand {sel : Byte} {s t : State} (h : fieldCommand sel s = .next t) :
    s.EndsCommand t := by
  obtain ⟨f, -, rfl⟩ | ⟨e, -, rfl⟩ := fieldCommand_eq_next h
  · exact .of_status (v := 0x00000021#32) rfl (by decide) (by decide) (by decide)
  · exact .of_error rfl (by decide)

/-- CLEAR, CRC16 and XOR, whatever their result. -/
theorem State.EndsCommand.of_clearedWith {s t : State} (hst : t.status = (s.clearedWith 0x00000001#32).status) :
    s.EndsCommand t :=
  .of_status (v := 0x00000001#32) hst (by decide) (by decide) (by decide)

theorem execDecode_endsCommand {s t : State} (h : execDecode s = .next t) : s.EndsCommand t := by
  obtain ⟨u, hu, rfl | hr⟩ := execDecode_eq_next h
  · exact execFrame_endsCommand hu
  · exact (execFrame_endsCommand hu).trans (execRecord_endsCommand hr)

theorem exec_endsCommand {i : Instr} {s t : State} (h : exec i s = .next t) : s.EndsCommand t := by
  obtain rfl | rfl | rfl | rfl | rfl | rfl | rfl | ⟨sel, hi⟩ := exec_shape i
  · cases h
    exact .of_status (m := BitVec.allOnes 32) (v := 0x00000001#32)
      (by rw [BitVec.and_allOnes]; rfl) (by decide) (by decide) (by decide)
  · obtain ⟨bs, -, rfl⟩ := execCrc16_eq_next h
    exact .of_clearedWith rfl
  · obtain ⟨bs, -, rfl⟩ := execXor_eq_next h
    exact .of_clearedWith rfl
  · exact execFrame_endsCommand h
  · exact execRecord_endsCommand h
  · exact execDecode_endsCommand h
  · cases (execClear_eq s).symm.trans h
    exact .of_clearedWith rfl
  · exact fieldCommand_endsCommand (hi s ▸ h)

/-- Every core step ends a command: that of an illegal word too (R104). -/
theorem coreStep_endsCommand {w : Word} {s t : State} (h : coreStep w s = .next t) : s.EndsCommand t := by
  cases hd : decode w with
  | ok i => exact exec_endsCommand (coreStep_of_decode_ok hd s ▸ h)
  | error e =>
    rw [coreStep_of_decode_error hd] at h
    cases h
    exact .of_status (v := 0x00000805#32) (congrArg State.status (illegalWord_eq s w)) (by decide) (by decide)
      (by decide)

/-- Settles O53: a core step writes nothing of what the host writes, and its STATUS keeps BUSY and the reserved bits and
sets DONE. -/
theorem commandsKeepTheInput : Obligations.CommandsKeepTheInput := by
  intro w s t h
  obtain ⟨hcmd, hlen, hbuf, hpend, hrecv⟩ := coreStep_sameInput h
  obtain ⟨hres, hdone⟩ := coreStep_endsCommand h
  exact ⟨hcmd, hlen, fun _ => by rw [hbuf], hres, hdone, hpend, hrecv⟩

end Sys2Proof.Machine
end

section
/-! SUPPORT. The invariant (10_state.md R28) group by group: what each register group must satisfy, how a command's end
meets it, and the induction step over the host's accesses. -/
namespace Sys2Proof.Machine

/-! ## The invariant of each group -/

/-- The ERROR group against STATUS (R28 (d)). -/
structure ErrorInv (st : Word) (e : ErrorGroup) : Prop where
  err_iff : flag errBit st = true ↔ errCode st ≠ 0x00#8
  no_err : errCode st = 0x00#8 → e = {}
  code_le : (errCode st).toNat ≤ 8

/-- The FRAME group and OUT_BUF against FRAME_VALID (R28 (a)). -/
structure FrameInv (valid : Bool) (f : FrameGroup) (out : List Byte) : Prop where
  of_valid : valid = true → out.length + 2 = f.hdrDlen.toNat ∧ f.crcRx = f.crcCalc ∧
    f.kindClass = BitVec.ofNat 32 (kindClassOf (f.hdrKind.setWidth 8))
  of_invalid : valid = false → f = { crcCalc := f.crcCalc }
  out_le : out.length ≤ 65543
  crc_range : f.crcCalc.toNat < 65536 ∧ f.crcRx.toNat < 65536
  hdr_range : f.hdrId.toNat < 65536 ∧ f.hdrProto.toNat < 65536 ∧
    f.hdrDlen.toNat < 65536 ∧ f.hdrUnit.toNat < 256 ∧ f.hdrKind.toNat < 256
  class_le : f.kindClass.toNat ≤ 7

/-- The RECORD group against REC_VALID and the frame it lies on (R28 (b)). -/
structure RecordInv (frameValid valid : Bool) (f : FrameGroup) (out : List Byte) (r : RecordGroup) : Prop where
  of_valid : valid = true → frameValid = true ∧ f.hdrKind = 0x04#32 ∧ r.extraLen.toNat + 409 = out.length
  of_invalid : valid = false → r = {}
  time_range : r.tsTime.toNat < 16777216

/-- The FIELD group against FIELD_VALID and the record it lies on (R28 (c)). -/
structure FieldInv (recValid valid : Bool) (g : FieldGroup) : Prop where
  of_valid : valid = true → recValid = true
  of_invalid : valid = false → g = {}
  range : g.fSel.toNat ≤ 0x28 ∧ g.fKind.toNat ≤ 1 ∧ g.fExp.toNat ≤ 2

section
variable {s : State} (h : s.Inv)
include h

theorem State.Inv.errorInv : ErrorInv s.status s.error :=
  ⟨h.err_iff, h.no_err, h.errCode_le⟩

theorem State.Inv.frameInv : FrameInv (flag frameValidBit s.status) s.frame s.outBuf :=
  ⟨h.frame_valid, h.frame_invalid, h.outBuf_le, h.crc_range, h.hdr_range, h.class_le⟩

theorem State.Inv.recordInv : RecordInv (flag frameValidBit s.status) (flag recValidBit s.status) s.frame s.outBuf
    s.record :=
  ⟨h.rec_valid, h.rec_invalid, h.time_range⟩

theorem State.Inv.fieldInv : FieldInv (flag recValidBit s.status) (flag fieldValidBit s.status) s.field :=
  ⟨h.field_valid, h.field_invalid, h.field_range⟩

/-- A command that leaves each group consistent keeps the invariant: it writes neither the input nor the reserved
bits. -/
theorem State.Inv.of_command {t : State} (hin : s.SameInput t) (hend : s.EndsCommand t)
    (herror : ErrorInv t.status t.error) (hframe : FrameInv (flag frameValidBit t.status) t.frame t.outBuf)
    (hrecord : RecordInv (flag frameValidBit t.status) (flag recValidBit t.status) t.frame t.outBuf t.record)
    (hfield : FieldInv (flag recValidBit t.status) (flag fieldValidBit t.status) t.field) : t.Inv where
  inBuf_wf := hin.inBuf ▸ h.inBuf_wf
  inBuf_range := hin.inBuf ▸ h.inBuf_range
  inLen_le := hin.inLen ▸ h.inLen_le
  outBuf_le := hframe.out_le
  reserved := hend.reserved.trans h.reserved
  err_iff := herror.err_iff
  no_err := herror.no_err
  errCode_le := herror.code_le
  frame_valid := hframe.of_valid
  frame_invalid := hframe.of_invalid
  rec_valid := hrecord.of_valid
  rec_invalid := hrecord.of_invalid
  field_valid := hfield.of_valid
  field_invalid := hfield.of_invalid
  crc_range := hframe.crc_range
  hdr_range := hframe.hdr_range
  class_le := hframe.class_le
  time_range := hrecord.time_range
  field_range := hfield.range

end

/-! ## STATUS at a command's end: the bits of a mask kept, others set -/

theorem flag_kept {n : Nat} {m v : Word} (st : Word) (hm : m.getLsbD n = true) (hv : v.getLsbD n = false) :
    flag n ((st &&& m) ||| v) = flag n st := by
  rw [flag_mask_set, hm, hv, Bool.and_true, Bool.or_false]

theorem flag_cleared {n : Nat} {m v : Word} (st : Word) (hm : m.getLsbD n = false) (hv : v.getLsbD n = false) :
    flag n ((st &&& m) ||| v) = false := by
  rw [flag_mask_set, hm, hv, Bool.and_false, Bool.or_false]

theorem flag_set {n : Nat} {v : Word} (st m : Word) (hv : v.getLsbD n = true) :
    flag n ((st &&& m) ||| v) = true := by
  rw [flag_mask_set, hv, Bool.or_true]

/-! ## How each group is left consistent -/

/-- No error is left when ERR and ERR_CODE are neither kept nor set. -/
theorem ErrorInv.of_no_error {m v : Word} (st : Word) (hm : errCode m = 0x00#8 ∧ m.getLsbD errBit = false)
    (hv : errCode v = 0x00#8 ∧ v.getLsbD errBit = false) : ErrorInv ((st &&& m) ||| v) {} := by
  have hcode : errCode ((st &&& m) ||| v) = 0x00#8 := by
    rw [errCode_or, errCode_and, hm.1, hv.1, BitVec.and_zero, BitVec.or_zero]
  exact ⟨by simp [hcode, flag_cleared st hm.2 hv.2], fun _ => rfl, by rw [hcode]; decide⟩

theorem CmdError.code_range (e : CmdError) : e.code ≠ 0x00#8 ∧ e.code.toNat ≤ 8 := by
  cases e <;> simp [CmdError.code]

/-- An error is left with its code when ERR_CODE is not kept (R110, R111). -/
theorem ErrorInv.of_error {m : Word} (st : Word) (hm : errCode m = 0x00#8) (e : CmdError) (d : ErrorGroup) :
    ErrorInv ((st &&& m) ||| errStatus e.code) d := by
  have hcode : errCode ((st &&& m) ||| errStatus e.code) = e.code := by
    rw [errCode_or, errCode_and, hm, errCode_errStatus, BitVec.and_zero, BitVec.zero_or]
  obtain ⟨hne, hle⟩ := e.code_range
  exact ⟨by simp [hcode, hne, flag_set st m (errStatus_getLsbD (n := errBit) (by decide) e.code)],
    fun h0 => absurd (hcode.symm.trans h0) hne, by rw [hcode]; exact hle⟩

/-- A checksum as a register (R15). -/
theorem crc_setWidth_lt (c : Crc) : (c.setWidth 32).toNat < 65536 := by
  rw [BitVec.toNat_setWidth_of_le (by decide)]
  exact c.isLt

theorem byte_setWidth_lt (b : Byte) : (b.setWidth 32).toNat < 256 := by
  rw [BitVec.toNat_setWidth_of_le (by decide)]
  exact b.isLt

/-- Without a frame the group is 0 but for CRC_CALC, and OUT_BUF may hold what XOR left. -/
theorem FrameInv.of_cleared {valid : Bool} (hv : valid = false) (c : Crc) {out : List Byte}
    (hout : out.length ≤ 65543) : FrameInv valid { crcCalc := c.setWidth 32 } out :=
  ⟨fun h => absurd (hv.symm.trans h) (by decide), fun _ => rfl, hout, ⟨crc_setWidth_lt c, by simp⟩, by simp,
    Nat.zero_le 7⟩

/-- A decoded frame: the lengths agree, the checksums match, and each header field has its width (R79 to R82). -/
theorem FrameInv.of_frameDecode {s : State} {f : FrameResult} (h : frameDecode s = .ok f) :
    FrameInv true (s.commitFrame f).frame f.payload := by
  obtain ⟨i0, i1, p0, p1, d0, d1, unit, kind, c0, c1, pl, -, hlen, hcrc, rfl⟩ := frameDecode_eq_ok h
  have hdl : (BitVec.ofNat 32 (be [d0, d1])).toNat = be [d0, d1] := by
    rw [BitVec.toNat_ofNat, Nat.mod_eq_of_lt ((be_pair_lt d0 d1).trans (by decide))]
  have hpair (hi lo : Byte) : (BitVec.ofNat 32 (be [hi, lo])).toNat < 65536 := by
    rw [BitVec.toNat_ofNat]
    exact (Nat.mod_le _ _).trans_lt (be_pair_lt hi lo)
  have hclass : (BitVec.ofNat 32 (kindClassOf kind)).toNat ≤ 7 := by
    rw [BitVec.toNat_ofNat]
    exact (Nat.mod_le _ _).trans (kindClassOf_le kind)
  refine ⟨fun _ => ⟨?_, ?_, ?_⟩, nofun, ?_, ⟨crc_setWidth_lt _, crc_setWidth_lt _⟩,
    ⟨hpair i0 i1, hpair p0 p1, hpair d0 d1, byte_setWidth_lt unit, byte_setWidth_lt kind⟩, hclass⟩
  · rw [mask_length, hlen]
    exact hdl.symm
  · exact congrArg (BitVec.setWidth 32) hcrc
  · simp
  · have := be_pair_lt d0 d1
    rw [mask_length]
    omega

theorem RecordInv.of_cleared {valid : Bool} (hv : valid = false) (frameValid : Bool) (f : FrameGroup)
    (out : List Byte) : RecordInv frameValid valid f out {} :=
  ⟨fun h => absurd (hv.symm.trans h) (by decide), fun _ => rfl, by decide⟩

/-- A decoded record lies on a `Data` frame of at least 409 bytes (R86, R87, R95). -/
theorem RecordInv.of_recordDecode {s : State} {x : RawTime} (hout : s.outBuf.length ≤ 65543)
    (h : recordDecode s = .ok x) : RecordInv (flag frameValidBit s.status) true s.frame s.outBuf
      (s.commitRecord x).record := by
  obtain ⟨-, hd⟩ | ⟨hf, hk, ⟨-, hd⟩ | ⟨hlen, -⟩⟩ := recordDecode_cases s
  · cases hd.symm.trans h
  · cases hd.symm.trans h
  refine ⟨fun _ => ⟨hf, hk, ?_⟩, nofun, ?_⟩
  · have hextra : (BitVec.ofNat 32 (s.outBuf.length - 409)).toNat = s.outBuf.length - 409 := by
      rw [BitVec.toNat_ofNat]; omega
    show (BitVec.ofNat 32 (s.outBuf.length - 409)).toNat + 409 = _
    omega
  · show (pack3 x.h.toNat x.mi.toNat x.s.toNat).toNat < _
    have := x.h.isLt
    have := x.mi.isLt
    have := x.s.isLt
    rw [pack3_toNat, BitVec.toNat_ofNat]
    omega

theorem FieldInv.of_cleared {valid : Bool} (hv : valid = false) (recValid : Bool) : FieldInv recValid valid {} :=
  ⟨fun h => absurd (hv.symm.trans h) (by decide), fun _ => rfl, by decide⟩

/-- What the layout gives has a selector 0x00 to 0x28 and an exponent 0 to 2, and a number of it is at most 4 bytes wide
and inside the fixed record (R60, R64). -/
theorem layout_eq_some {e : Nat} {sel : Byte} {row : FieldRow} (h : layout e sel = some row) :
    sel.toNat ≤ 0x28 ∧ row.k ≤ 2 ∧ (row.type ≠ .bytes → row.width ≤ 4 ∧ row.off + row.width ≤ 409) := by
  obtain ⟨rfl, hl⟩ | ⟨hsel, row', hmem, hl⟩ | ⟨-, hl⟩ := layout_cases e sel
  · cases hl.symm.trans h
    exact ⟨by decide, Nat.zero_le 2, fun hne => absurd rfl hne⟩
  · cases hl.symm.trans h
    obtain ⟨hend, hk, hwidth⟩ := layoutTable_rows row hmem
    exact ⟨by omega, hk, fun hne => ⟨hwidth hne, hend⟩⟩
  · cases hl.symm.trans h

/-- A field is selected from a decoded record, as a byte range or as a number read from OUT_BUF (R103). -/
theorem fieldSelect_eq_ok {s : State} {sel : Byte} {f : FieldGroup} (h : fieldSelect s sel = .ok f) :
    flag recValidBit s.status = true ∧ ∃ row, layout s.record.extraLen.toNat sel = some row ∧
      (f = bytesField sel row ∨
        (row.type ≠ .bytes ∧ f = numberField sel row (be (slice s.outBuf row.off row.width)))) := by
  obtain ⟨-, hd⟩ | ⟨row, hrow, ⟨-, hd⟩ | ⟨hv, ⟨-, hd⟩ | ⟨-, -, hd⟩ | ⟨hne, -, hd⟩⟩⟩ := fieldSelect_cases s sel
  · cases hd.symm.trans h
  · cases hd.symm.trans h
  · cases hd.symm.trans h; exact ⟨hv, row, hrow, .inl rfl⟩
  · cases hd.symm.trans h
  · cases hd.symm.trans h; exact ⟨hv, row, hrow, .inr ⟨hne, rfl⟩⟩

theorem FieldInv.of_fieldSelect {s : State} {sel : Byte} {f : FieldGroup} (h : fieldSelect s sel = .ok f) :
    FieldInv (flag recValidBit s.status) true f := by
  obtain ⟨hv, row, hrow, hf⟩ := fieldSelect_eq_ok h
  obtain ⟨hsel, hk, -⟩ := layout_eq_some hrow
  have hselReg : (sel.setWidth 32).toNat ≤ 0x28 := by
    rwa [BitVec.toNat_setWidth_of_le (by decide)]
  have hexpReg : (BitVec.ofNat 32 row.k).toNat ≤ 2 := by
    rw [BitVec.toNat_ofNat]
    exact (Nat.mod_le _ _).trans hk
  refine ⟨fun _ => hv, nofun, ?_⟩
  obtain rfl | ⟨-, rfl⟩ := hf
  · exact ⟨hselReg, le_rfl, Nat.zero_le 2⟩
  · exact ⟨hselReg, Nat.zero_le 1, hexpReg⟩

/-! ## Every command keeps the invariant -/

section
variable {s t : State} (h : s.Inv)
include h

/-- A command that clears every group and may then write CRC_CALC or OUT_BUF (CLEAR, CRC16, XOR). -/
theorem State.Inv.of_clearedWith {c : Crc} {out : List Byte} (hout : out.length ≤ 65543)
    (ht : t = { s.clearedWith 0x00000001#32 with frame := { crcCalc := c.setWidth 32 }, outBuf := out }) :
    t.Inv := by
  subst ht
  exact h.of_command ⟨rfl, rfl, rfl, rfl, rfl⟩ (.of_clearedWith rfl)
    (.of_no_error s.status (by decide) (by decide))
    (.of_cleared (flag_cleared s.status (by decide) (by decide)) c hout)
    (.of_cleared (flag_cleared s.status (by decide) (by decide)) _ _ _)
    (.of_cleared (flag_cleared s.status (by decide) (by decide)) _)

/-- A command that writes STATUS and the ERROR group alone and keeps the three flags (NOP, an illegal word). -/
theorem State.Inv.of_error_only {m v : Word} {e : ErrorGroup} (hend : s.EndsCommand t)
    (ht : t = { s with status := (s.status &&& m) ||| v, error := e })
    (hm : ∀ n ∈ [frameValidBit, recValidBit, fieldValidBit], m.getLsbD n = true ∧ v.getLsbD n = false)
    (herror : ErrorInv ((s.status &&& m) ||| v) e) : t.Inv := by
  subst ht
  have hflag : ∀ n ∈ [frameValidBit, recValidBit, fieldValidBit], flag n ((s.status &&& m) ||| v) = flag n s.status :=
    fun n hn => flag_kept s.status (hm n hn).1 (hm n hn).2
  refine h.of_command ⟨rfl, rfl, rfl, rfl, rfl⟩ hend herror ?_ ?_ ?_
  · rw [hflag frameValidBit (by decide)]
    exact h.frameInv
  · rw [hflag frameValidBit (by decide), hflag recValidBit (by decide)]
    exact h.recordInv
  · rw [hflag recValidBit (by decide), hflag fieldValidBit (by decide)]
    exact h.fieldInv

theorem execNop_inv (ht : execNop s = .next t) : t.Inv := by
  have hend : s.EndsCommand t := exec_endsCommand (i := .nop) ht
  cases ht
  refine h.of_error_only (m := BitVec.allOnes 32) (v := 0x00000001#32) (e := s.error) hend
    (by rw [BitVec.and_allOnes]; rfl) (by decide) ?_
  have hcode : errCode (s.status ||| 0x00000001#32) = errCode s.status := errCode_setFlag (n := 0) (by decide) _
  have herr : flag errBit (s.status ||| 0x00000001#32) = flag errBit s.status := by
    simp [flag_or, errBit]
  obtain ⟨hiff, hnone, hle⟩ := h.errorInv
  rw [BitVec.and_allOnes]
  exact ⟨by rw [hcode, herr]; exact hiff, hcode ▸ hnone, hcode ▸ hle⟩

theorem illegalWord_inv (w : Word) : (s.illegalWord w).Inv := by
  have hcode : errStatus (CmdError.illegalCommand w).code = 0x00000805#32 := by
    simp only [CmdError.code]; decide
  have herror : ErrorInv ((s.status &&& 0xFFFF00FA#32) ||| 0x00000805#32) { errA := w, errB := 0#32 } :=
    hcode ▸ .of_error s.status (by decide) (.illegalCommand w) _
  exact h.of_error_only (.of_error (c := 0x08#8) (congrArg State.status (illegalWord_eq s w)) (by decide))
    (illegalWord_eq s w) (by decide) herror

theorem execCrc16_inv (ht : execCrc16 s = .next t) : t.Inv := by
  obtain ⟨bs, -, rfl⟩ := execCrc16_eq_next ht
  exact h.of_clearedWith (Nat.zero_le _) rfl

theorem execXor_inv (ht : execXor s = .next t) : t.Inv := by
  obtain ⟨bs, hin, rfl⟩ := execXor_eq_next ht
  exact h.of_clearedWith (c := 0#16) (by rw [mask_length, ← hin.1]; exact h.inLen_le) rfl

theorem execClear_inv (ht : execClear s = .next t) : t.Inv := by
  cases (execClear_eq s).symm.trans ht
  exact h.of_clearedWith (c := 0#16) (Nat.zero_le _) rfl

theorem execFrame_inv (ht : execFrame s = .next t) : t.Inv := by
  have hend := execFrame_endsCommand ht
  obtain ⟨f, hf, rfl⟩ | ⟨e, -, rfl⟩ := execFrame_eq_next ht
  · refine h.of_command ⟨rfl, rfl, rfl, rfl, rfl⟩ hend (.of_no_error s.status (by decide) (by decide)) ?_
      (.of_cleared (flag_cleared s.status (by decide) (by decide)) _ _ _)
      (.of_cleared (flag_cleared s.status (by decide) (by decide)) _)
    have hv : flag frameValidBit ((s.status &&& 0xFFFF00C2#32) ||| 0x00000009#32) = true := flag_set _ _ (by decide)
    show FrameInv (flag frameValidBit ((s.status &&& 0xFFFF00C2#32) ||| 0x00000009#32)) _ _
    rw [hv]
    exact .of_frameDecode hf
  · exact h.of_command ⟨rfl, rfl, rfl, rfl, rfl⟩ hend (.of_error s.status (by decide) e _)
      (.of_cleared (frameFailed_flag (by decide) ..) 0#16 (Nat.zero_le _))
      (.of_cleared (frameFailed_flag (by decide) ..) _ _ _) (.of_cleared (frameFailed_flag (by decide) ..) _)

/-- RECORD keeps the frame, and its record lies on that frame. -/
theorem execRecord_inv (ht : execRecord s = .next t) : t.Inv := by
  have hend := execRecord_endsCommand ht
  obtain ⟨x, hx, rfl⟩ | ⟨e, -, rfl⟩ := execRecord_eq_next ht
  · have hfv : flag frameValidBit ((s.status &&& 0xFFFF00CA#32) ||| 0x00000011#32) = flag frameValidBit s.status :=
      flag_kept _ (by decide) (by decide)
    have hrv : flag recValidBit ((s.status &&& 0xFFFF00CA#32) ||| 0x00000011#32) = true := flag_set _ _ (by decide)
    refine h.of_command ⟨rfl, rfl, rfl, rfl, rfl⟩ hend (.of_no_error s.status (by decide) (by decide)) ?_ ?_
      (.of_cleared (flag_cleared s.status (by decide) (by decide)) _)
    · rw [hfv]
      exact h.frameInv
    · rw [hfv, hrv]
      exact .of_recordDecode h.outBuf_le hx
  · refine h.of_command ⟨rfl, rfl, rfl, rfl, rfl⟩ hend (.of_error s.status (by decide) e _) ?_
      (.of_cleared (flag_cleared s.status (by decide) (errStatus_getLsbD (by decide) _)) _ _ _)
      (.of_cleared (flag_cleared s.status (by decide) (errStatus_getLsbD (by decide) _)) _)
    rw [recordFailed_frameValid]
    exact h.frameInv

/-- FIELD keeps the frame and the record, and its field lies on that record. -/
theorem fieldCommand_inv {sel : Byte} (ht : fieldCommand sel s = .next t) : t.Inv := by
  have hend := fieldCommand_endsCommand ht
  have hkeep (v : Word) (e : ErrorGroup) (g : FieldGroup)
      (hv : v.getLsbD frameValidBit = false ∧ v.getLsbD recValidBit = false) :
      flag frameValidBit (s.fieldEnd v e g).status = flag frameValidBit s.status ∧
      flag recValidBit (s.fieldEnd v e g).status = flag recValidBit s.status :=
    ⟨flag_kept _ (by decide) hv.1, flag_kept _ (by decide) hv.2⟩
  obtain ⟨f, hf, rfl⟩ | ⟨e, -, rfl⟩ := fieldCommand_eq_next ht
  · obtain ⟨hfv, hrv⟩ := hkeep 0x00000021#32 {} f (by decide)
    have hsv : flag fieldValidBit (s.fieldEnd 0x00000021#32 {} f).status = true := flag_set _ _ (by decide)
    refine h.of_command ⟨rfl, rfl, rfl, rfl, rfl⟩ hend (.of_no_error s.status (by decide) (by decide)) ?_ ?_ ?_
    · rw [hfv]; exact h.frameInv
    · rw [hfv, hrv]; exact h.recordInv
    · rw [hrv, hsv]; exact .of_fieldSelect hf
  · obtain ⟨hfv, hrv⟩ := hkeep (errStatus e.code) { errA := e.detailA, errB := e.detailB } {}
      ⟨errStatus_getLsbD (by decide) _, errStatus_getLsbD (by decide) _⟩
    refine h.of_command ⟨rfl, rfl, rfl, rfl, rfl⟩ hend (.of_error s.status (by decide) e _) ?_ ?_
      (.of_cleared (flag_cleared s.status (by decide) (errStatus_getLsbD (by decide) _)) _)
    · rw [hfv]; exact h.frameInv
    · rw [hfv, hrv]; exact h.recordInv

theorem execDecode_inv (ht : execDecode s = .next t) : t.Inv := by
  obtain ⟨u, hu, rfl | hr⟩ := execDecode_eq_next ht
  · exact execFrame_inv h hu
  · exact execRecord_inv (execFrame_inv h hu) hr

theorem exec_inv {i : Instr} (ht : exec i s = .next t) : t.Inv := by
  obtain rfl | rfl | rfl | rfl | rfl | rfl | rfl | ⟨sel, hi⟩ := exec_shape i
  · exact execNop_inv h ht
  · exact execCrc16_inv h ht
  · exact execXor_inv h ht
  · exact execFrame_inv h ht
  · exact execRecord_inv h ht
  · exact execDecode_inv h ht
  · exact execClear_inv h ht
  · exact fieldCommand_inv h (hi s ▸ ht)

theorem coreStep_inv {w : Word} (ht : coreStep w s = .next t) : t.Inv := by
  cases hd : decode w with
  | ok i => exact exec_inv h (coreStep_of_decode_ok hd s ▸ ht)
  | error e =>
    rw [coreStep_of_decode_error hd] at ht
    cases ht
    exact illegalWord_inv h w

end

/-! ## Every access of the host keeps the invariant -/

theorem State.reset_inv : State.reset.Inv where
  inBuf_wf := reset_inBuf_wf
  inBuf_range := nofun
  inLen_le := Nat.zero_le _
  outBuf_le := Nat.zero_le _
  reserved := rfl
  err_iff := by decide
  no_err _ := rfl
  errCode_le := by decide
  frame_valid := by decide
  frame_invalid _ := rfl
  rec_valid := by decide
  rec_invalid _ := rfl
  field_valid := by decide
  field_invalid _ := rfl
  crc_range := by decide
  hdr_range := by decide
  class_le := by decide
  time_range := by decide
  field_range := by decide

/-- Settles O50: without a flag every group is 0, and both buffers are empty. -/
theorem resetMeetsTheInvariant : Obligations.ResetMeetsTheInvariant := State.reset_inv

/-- A reset of the block keeps the host's lists, of which the invariant says nothing. -/
theorem State.resetCore_inv (s : State) : s.resetCore.Inv := { State.reset_inv with }

/-- Only the `IN_CAP` bytes of the buffer are reached (R35). -/
theorem target_inBuf_lt {addr : Word} {i : Nat} (h : target addr = .inBuf i) : i < 65543 := by
  rw [target_eq] at h
  split_ifs at h with h1 h2 h3
  · split at h <;> cases h
  · have hi := Target.inBuf.inj h
    omega

section
variable {s t : State} (h : s.Inv)
include h

theorem busWrite_inv {width : Nat} {addr data : Word} (ht : busWrite s width addr data = .next t) : t.Inv := by
  obtain ⟨-, -, hw⟩ | ⟨-, hdata, hw⟩ | ⟨i, hi, -, hw⟩ | ⟨r, hw⟩ := busWrite_cases s width addr data
  · have hcmd : ({ s with cmd := data } : State).Inv := { h with }
    exact coreStep_inv hcmd (hw ▸ ht)
  · cases hw.symm.trans ht
    exact { h with inLen_le := hdata }
  · cases hw.symm.trans ht
    exact { h with
      inBuf_wf := Memory.write_wf h.inBuf_wf i _
      inBuf_range := Memory.write_range h.inBuf_range (target_inBuf_lt hi) }
  · cases hw.symm.trans ht

theorem hostAct_inv {a : HostAction} (ht : hostAct a s = .next t) : t.Inv := by
  cases a with
  | read width addr =>
    rw [hostAct] at ht
    split at ht
    · cases ht
      exact { h with }
    · cases ht
  | write width addr data => exact busWrite_inv h ht
  | reset =>
    cases ht
    exact s.resetCore_inv

end

/-- Settles O51: a step is the host's next access, if there is one. -/
theorem stepKeepsTheInvariant : Obligations.StepKeepsTheInvariant := by
  intro s t h ht
  cases hp : s.pending with
  | nil =>
    rw [step, hostStep, hp] at ht
    cases ht
    exact h
  | cons a rest =>
    rw [step_cons hp] at ht
    have hrest : ({ s with pending := rest } : State).Inv := { h with }
    exact hostAct_inv hrest ht

end Sys2Proof.Machine
end

section
/-! SUPPORT. The step as the host's next access (10_state.md R11): which command it runs, which accesses are refused, and
what an access that runs no command leaves alone. -/
namespace Sys2Proof.Machine

/-- Settles O5: a write of CMD is the core step of its word, by what the word decodes to. -/
theorem stepRunsTheWrittenCommand : Obligations.StepRunsTheWrittenCommand := by
  refine ⟨fun s w i rest h hd => ?_, fun s w e rest h hd => ?_⟩
  · rw [step_write h, busWrite_cmd, coreStep_of_decode_ok hd]
  · rw [step_write h, busWrite_cmd, coreStep_of_decode_error hd]

/-- With nothing pending a step is idle (R124). -/
theorem step_nil {s : State} (h : s.pending = []) : step s = .next s := by
  simp only [step, hostStep, h]

/-- Settles O7. -/
theorem idleAndResetKeepTheHostLists : Obligations.IdleAndResetKeepTheHostLists :=
  ⟨fun _ h => step_nil h, fun _ _ h => ⟨_, step_cons h, rfl, rfl⟩⟩

/-- Settles O11: these addresses reach nothing. -/
theorem unmappedAccessesAreRefused : Obligations.UnmappedAccessesAreRefused := by
  intro s rest width addr haddr
  have ht := target_unmapped haddr
  exact ⟨fun h => step_read_error h (busRead_unmapped ht _ width),
    fun v h => (step_write h).trans (busWrite_unmapped ht _ width v)⟩

/-- A host access that is neither a write of CMD nor a reset writes IN_LEN, IN_BUF and the values read at most (R36,
R37). -/
theorem hostAct_eq_of_no_command {a : HostAction} {s t : State} (hreset : a ≠ .reset)
    (hcmd : ∀ width w, a ≠ .write width 0x00000000#32 w) (h : hostAct a s = .next t) :
    t = { s with inLen := t.inLen, inBuf := t.inBuf, received := t.received } := by
  cases a with
  | reset => exact absurd rfl hreset
  | read width addr =>
    rw [hostAct] at h
    split at h
    · cases h; rfl
    · cases h
  | write width addr data =>
    rw [hostAct] at h
    obtain ⟨-, ht, -⟩ | ⟨-, -, hw⟩ | ⟨i, -, -, hw⟩ | ⟨r, hw⟩ := busWrite_cases s width addr data
    · exact absurd (congrArg (HostAction.write width · data) (target_cmd ht)) (hcmd width data)
    · cases hw.symm.trans h; rfl
    · cases hw.symm.trans h; rfl
    · cases hw.symm.trans h

/-- Settles O14: such an access writes none of these. -/
theorem hostAccessesKeepTheResults : Obligations.HostAccessesKeepTheResults := by
  intro s t a rest hp hreset hcmd h
  rw [step_cons hp] at h
  rw [hostAct_eq_of_no_command hreset hcmd h]
  exact ⟨rfl, rfl, rfl, rfl, rfl, rfl, rfl, rfl⟩

end Sys2Proof.Machine
end

section
/-! SUPPORT. The model's one fault follows from no state that meets the invariant (log 7). -/
namespace Sys2Proof.Machine

theorem execRecord_ne_fault (s : State) (f : Fault) : execRecord s ≠ .fault f := by
  rw [execRecord_eq, ne_eq, Attempt.settle_eq_fault]
  exact recordDecode_ne_fault s f

theorem execFrame_ne_fault (s : State) (f : Fault) : execFrame s ≠ .fault f := by
  rw [execFrame_eq, ne_eq, Attempt.settle_eq_fault]
  exact frameDecode_ne_fault s f

theorem execDecode_ne_fault (s : State) (f : Fault) : execDecode s ≠ .fault f := by
  intro h
  cases hf : execFrame s with
  | next u =>
    rw [execDecode_of_execFrame_next hf] at h
    split at h
    · exact execRecord_ne_fault u f h
    · cases h
  | refused r => cases (execDecode_of_execFrame_refused hf).symm.trans h
  | fault f' => exact execFrame_ne_fault s f' hf

theorem execCrc16_ne_fault (s : State) (f : Fault) : execCrc16 s ≠ .fault f := by
  rw [execCrc16_eq]
  split <;> nofun

theorem execXor_ne_fault (s : State) (f : Fault) : execXor s ≠ .fault f := by
  rw [execXor_eq]
  split <;> nofun

section
variable {s : State} (h : s.Inv) (f : Fault)
include h

/-- A decoded record has the 409 bytes every number of the layout lies in (R28 (b), R60). -/
theorem State.Inv.fieldSelect_ne_fault (sel : Byte) : fieldSelect s sel ≠ .fault f := by
  intro hs
  obtain ⟨-, hd⟩ | ⟨row, hrow, ⟨-, hd⟩ | ⟨hv, ⟨-, hd⟩ | ⟨hne, hlt, -⟩ | ⟨-, -, hd⟩⟩⟩ := fieldSelect_cases s sel
  · cases hd.symm.trans hs
  · cases hd.symm.trans hs
  · cases hd.symm.trans hs
  · obtain ⟨-, -, hnumber⟩ := layout_eq_some hrow
    obtain ⟨-, hend⟩ := hnumber hne
    have hlen := h.extra_end hv
    omega
  · cases hd.symm.trans hs

theorem State.Inv.exec_ne_fault (i : Instr) : exec i s ≠ .fault f := by
  obtain rfl | rfl | rfl | rfl | rfl | rfl | rfl | ⟨sel, hi⟩ := exec_shape i
  · exact nofun
  · exact execCrc16_ne_fault s f
  · exact execXor_ne_fault s f
  · exact execFrame_ne_fault s f
  · exact execRecord_ne_fault s f
  · exact execDecode_ne_fault s f
  · exact nofun
  · rw [hi, fieldCommand_eq, ne_eq, Attempt.settle_eq_fault]
    exact h.fieldSelect_ne_fault f sel

theorem State.Inv.busWrite_ne_fault (width : Nat) (addr data : Word) : busWrite s width addr data ≠ .fault f := by
  obtain ⟨-, -, hw⟩ | ⟨-, -, hw⟩ | ⟨i, -, -, hw⟩ | ⟨r, hw⟩ := busWrite_cases s width addr data
  · have hcmd : ({ s with cmd := data } : State).Inv := { h with }
    rw [hw, coreStep]
    split
    · exact hcmd.exec_ne_fault f _
    · nofun
  all_goals
    rw [hw]
    nofun

theorem State.Inv.hostAct_ne_fault (a : HostAction) : hostAct a s ≠ .fault f := by
  cases a with
  | read width addr =>
    rw [hostAct]
    split <;> nofun
  | write width addr data => exact h.busWrite_ne_fault f width addr data
  | reset => nofun

end

/-- Settles O52: the only read that can fault is FIELD's, of a number in a decoded record. -/
theorem invariantExcludesFaults : Obligations.InvariantExcludesFaults := by
  intro s f h
  cases hp : s.pending with
  | nil => rw [step_nil hp]; nofun
  | cons a rest =>
    rw [step_cons hp]
    have hrest : ({ s with pending := rest } : State).Inv := { h with }
    exact hrest.hostAct_ne_fault f a

end Sys2Proof.Machine
end

section
/-! SUPPORT. The errors and what they report (60_exceptions.md R110, R111). -/
namespace Sys2Proof.Machine

/-- Settles O47: an error's STATUS is the old one under the mask that leaves out ERR and ERR_CODE, both set anew. -/
theorem raiseWritesOnlyTheErrorGroup : Obligations.RaiseWritesOnlyTheErrorGroup := by
  intro s e
  have hshift : (e.code.setWidth 32 : Word) <<< 8 = e.code.setWidth 32 * 256#32 :=
    BitVec.shiftLeft_eq_mul_twoPow _ 8
  rw [State.raise, statusRaise_eq, hshift, BitVec.or_assoc]

/-- Three bytes in a register are the positional number (R111). -/
theorem pack3_bytes_toNat (a b c : Byte) :
    (pack3 a.toNat b.toNat c.toNat).toNat = a.toNat * 65536 + b.toNat * 256 + c.toNat := by
  have := a.isLt
  have := b.isLt
  have := c.isLt
  rw [pack3_toNat, BitVec.toNat_ofNat]
  omega

/-- Settles O48, error by error: a register is wider than the checksum, the packed bytes and the selector it shows. -/
theorem errorCodesAndDetails : Obligations.ErrorCodesAndDetails := by
  refine ⟨fun _ _ => ⟨rfl, rfl, rfl⟩, fun x c => ⟨rfl, ?_, ?_⟩, fun y mo d h mi s => ⟨rfl, ?_, ?_⟩,
    fun _ _ => ⟨rfl, rfl, rfl⟩, fun _ _ => ⟨rfl, rfl, rfl⟩, ⟨rfl, rfl, rfl⟩, fun sel => ⟨rfl, ?_, rfl⟩,
    fun _ => ⟨rfl, rfl, rfl⟩⟩
  · exact BitVec.toNat_setWidth_of_le (by decide)
  · exact BitVec.toNat_setWidth_of_le (by decide)
  · exact pack3_bytes_toNat y mo d
  · exact pack3_bytes_toNat h mi s
  · exact BitVec.toNat_setWidth_of_le (by decide)

/-- Settles O27, over the 256 kind bytes. -/
theorem kindClassTable : Obligations.KindClassTable := by
  unfold Obligations.KindClassTable
  decide +kernel

end Sys2Proof.Machine
end

section
/-! SUPPORT. The two other forms of the CRC, the mask as its own inverse, and what one changed byte does to the CRC
(40_crc16.md R66 to R68, 41_xor_mask.md R74). -/
namespace Sys2Proof.Machine

/-! ## The least-significant-bit-first form -/

theorem reflect_crcPoly : reflect crcPoly = 0xA001#16 := by decide

/-- A step of R67 is the reversal of a step of R66 (R67). -/
theorem reflect_crcShift (c : Crc) : reflect (crcShift c) = crcShiftLsb (reflect c) := by
  have hbit : (reflect c).getLsbD 0 = c.getLsbD 15 := reflect_getLsbD c 0 (by decide)
  rw [crcShift, crcShiftLsb, hbit, reflect_ushiftRight, ← reflect_crcPoly, ← reflect_xor]
  exact apply_ite reflect _ _ _

/-- Reversed, a byte that enters at the top of the register is that byte at the bottom. -/
theorem reflect_byte (b : Byte) : reflect ((reflect b).setWidth 16 <<< 8 : Crc) = b.setWidth 16 := by
  revert b; decide +kernel

theorem reflect_crcByte (c : Crc) (b : Byte) :
    reflect (crcByte c b) = crcShiftLsb^[8] (reflect c ^^^ b.setWidth 16) := by
  have hsteps : Function.Semiconj reflect crcShift crcShiftLsb := reflect_crcShift
  rw [crcByte, hsteps.iterate_right 8, reflect_xor, reflect_byte]

/-- Settles O19: reversal carries each byte of R66 to that of R67, and the initial value is its own reversal. -/
theorem lsbFirstCrcIsTheCrc : Obligations.LsbFirstCrcIsTheCrc := by
  intro s
  have hinit : reflect crcInit = crcInit := by decide
  calc crc16Lsb s
    _ = s.foldl (fun c b => crcShiftLsb^[8] (c ^^^ b.setWidth 16)) (reflect crcInit) := by rw [hinit, crc16Lsb]
    _ = reflect (s.foldl crcByte crcInit) := List.foldl_hom reflect fun c b => (reflect_crcByte c b).symm
    _ = crc16 s := (BitVec.xor_zero).symm

/-! ## The form through the table -/

/-- The steps of R67 are linear over the bits. -/
theorem crcShiftLsb_xor (c d : Crc) : crcShiftLsb (c ^^^ d) = crcShiftLsb c ^^^ crcShiftLsb d := by
  simp only [crcShiftLsb, BitVec.getLsbD_xor, BitVec.ushiftRight_xor_distrib]
  cases c.getLsbD 0 <;> cases d.getLsbD 0
  · rfl
  · exact BitVec.xor_assoc ..
  · show c >>> 1 ^^^ d >>> 1 ^^^ 0xA001#16 = c >>> 1 ^^^ 0xA001#16 ^^^ d >>> 1
    ac_rfl
  · show c >>> 1 ^^^ d >>> 1 = c >>> 1 ^^^ 0xA001#16 ^^^ (d >>> 1 ^^^ 0xA001#16)
    rw [BitVec.xor_comm (d >>> 1) 0xA001#16, BitVec.xor_assoc, ← BitVec.xor_assoc 0xA001#16, BitVec.xor_self,
      BitVec.zero_xor]

theorem crcShiftLsb_iterate_xor (n : Nat) (c d : Crc) :
    crcShiftLsb^[n] (c ^^^ d) = crcShiftLsb^[n] c ^^^ crcShiftLsb^[n] d :=
  Function.Semiconj₂.iterate (op := (· ^^^ ·)) crcShiftLsb_xor n c d

/-- Zero bits are shifted out without effect. -/
theorem crcShiftLsb_iterate_of_low_zero (n : Nat) (c : Crc) (h : ∀ i < n, c.getLsbD i = false) :
    crcShiftLsb^[n] c = c >>> n := by
  induction n generalizing c with
  | zero => simp
  | succ n ih =>
    have hstep : crcShiftLsb c = c >>> 1 := by
      rw [crcShiftLsb, h 0 (Nat.succ_pos n)]
      rfl
    have hlow : ∀ i < n, (c >>> 1).getLsbD i = false := fun i hi => by
      rw [BitVec.getLsbD_ushiftRight]
      exact h (1 + i) (by omega)
    rw [Function.iterate_succ_apply, hstep, ih _ hlow, ← BitVec.shiftRight_add, Nat.add_comm]

/-- An entry of the table is what eight steps make of its index (R68). -/
theorem crcTable_getD (b : Byte) : crcTable.getD b.toNat 0#16 = crcShiftLsb^[8] (b.setWidth 16) := by
  revert b; decide +kernel

/-- A register is its high byte and its low byte. -/
theorem crc_eq_high_xor_low (x : Crc) : x = (x >>> 8) <<< 8 ^^^ (x.setWidth 8).setWidth 16 := by
  apply BitVec.eq_of_getLsbD_eq
  intro i hi
  by_cases h8 : i < 8
  · simp [h8, hi]
  · simp [h8, hi, show 8 + (i - 8) = i by omega]

/-- Eight steps take the table entry of the low byte and shift the high byte down (R68). -/
theorem crcShiftLsb_iterate_eight (x : Crc) :
    crcShiftLsb^[8] x = x >>> 8 ^^^ crcTable.getD (x &&& 0x00FF#16).toNat 0#16 := by
  have hhigh : crcShiftLsb^[8] ((x >>> 8) <<< 8) = x >>> 8 := by
    rw [crcShiftLsb_iterate_of_low_zero 8 _ fun i hi => by simp [hi]]
    apply BitVec.eq_of_getLsbD_eq
    intro i hi
    simpa using BitVec.lt_of_getLsbD
  have hlow : (x &&& 0x00FF#16).toNat = (x.setWidth 8).toNat := by
    rw [BitVec.toNat_and, BitVec.toNat_setWidth]
    exact Nat.and_two_pow_sub_one_eq_mod x.toNat 8
  calc crcShiftLsb^[8] x
    _ = crcShiftLsb^[8] ((x >>> 8) <<< 8 ^^^ (x.setWidth 8).setWidth 16) := by rw [← crc_eq_high_xor_low]
    _ = _ := by rw [crcShiftLsb_iterate_xor, hhigh, ← crcTable_getD, hlow]

/-- Settles O20: on a byte the form through the table is eight steps of the bit-at-a-time form, which is the CRC. -/
theorem tableCrcIsTheCrc : Obligations.TableCrcIsTheCrc := by
  intro s
  have hbyte (c : Crc) (b : Byte) : crcShiftLsb^[8] (c ^^^ b.setWidth 16) =
      c >>> 8 ^^^ crcTable.getD ((c ^^^ b.setWidth 16) &&& 0x00FF#16).toNat 0#16 := by
    have hb : (b.setWidth 16 : Crc) >>> 8 = 0#16 := by
      apply BitVec.eq_of_getLsbD_eq
      intro i _
      simp
    rw [crcShiftLsb_iterate_eight, BitVec.ushiftRight_xor_distrib, hb, BitVec.xor_zero]
  calc crc16Table s
    _ = crc16Lsb s := by simp only [crc16Table, crc16Lsb, hbyte]
    _ = crc16 s := lsbFirstCrcIsTheCrc s

/-! ## The mask -/

/-- Settles O23, byte by byte: the key byte of a position cancels itself. -/
theorem maskTwiceIsIdentity : Obligations.MaskTwiceIsIdentity := by
  intro s
  apply List.ext_getElem?
  intro i
  rw [mask_getElem?, mask_getElem?]
  cases s[i]? with
  | none => rfl
  | some b => simp

/-! ## One changed byte -/

theorem reflect_injective {n : Nat} : Function.Injective (reflect (n := n)) :=
  Function.LeftInverse.injective reflect_reflect

/-- Two bytes that enter the same register leave different ones. -/
theorem crcByte_right_injective (c : Crc) : Function.Injective (crcByte c) := by
  intro a b h
  have hin : (reflect a).setWidth 16 <<< 8 = ((reflect b).setWidth 16 <<< 8 : Crc) :=
    (BitVec.xor_right_inj _).1 (crcShift_injective.iterate 8 h)
  have hrev := congrArg (fun v : Crc => (reflect v).setWidth 8) hin
  simpa [reflect_byte] using hrev

/-- The bytes that follow keep two registers apart. -/
theorem foldl_crcByte_injective (s : List Byte) : Function.Injective (fun c => s.foldl crcByte c) := by
  induction s with
  | nil => exact fun _ _ h => h
  | cons b s ih => exact fun c d h => crcByte_injective b (ih h)

/-- Sequences that differ in one byte have different CRCs. -/
theorem crc16_ne_of_one_byte {a b : Byte} (h : a ≠ b) (pre post : List Byte) :
    crc16 (pre ++ a :: post) ≠ crc16 (pre ++ b :: post) := by
  intro hcrc
  have hfold : (pre ++ a :: post).foldl crcByte crcInit = (pre ++ b :: post).foldl crcByte crcInit :=
    reflect_injective (BitVec.xor_left_inj _ |>.1 hcrc)
  simp only [List.foldl_append, List.foldl_cons] at hfold
  exact h (crcByte_right_injective _ (foldl_crcByte_injective post hfold))

theorem crc16_set_ne {s : List Byte} {k : Nat} {b : Byte} (hk : k < s.length) (hb : s[k]? ≠ some b) :
    crc16 (s.set k b) ≠ crc16 s := by
  have hne : b ≠ s[k] := fun h => hb (by rw [h, List.getElem?_eq_getElem hk])
  have hs : s = s.take k ++ s[k] :: s.drop (k + 1) := by
    rw [List.getElem_cons_drop, List.take_append_drop]
  rw [List.set_eq_take_append_cons_drop, if_pos hk]
  conv => rhs; rw [hs]
  exact crc16_ne_of_one_byte hne _ _

end Sys2Proof.Machine
end

section
/-! SUPPORT. What decides whether FRAME and DECODE decode their input: unwritten bytes, the checksum, one changed byte
(42_frame_decode.md R79 to R84, 60_exceptions.md R118 F7). -/
namespace Sys2Proof.Machine

/-! ## Unwritten bytes -/

/-- The header parse needs each of the bytes 0 to 7 (R77, R118 F7). -/
theorem headerParse_unwritten {s : State} {j : Nat} (hj : j < 8) (h : s.inBuf.read j = none) :
    headerParse s = none :=
  headerParse_eq_none (Memory.bytes_eq_none hj (by rwa [Nat.zero_add]))

/-- The declared length is bytes 4 and 5 of the header (R77). -/
theorem headerParse_dl {s : State} {h : Header} {d0 d1 : Byte} (hp : headerParse s = some h)
    (h0 : s.inBuf.read 4 = some d0) (h1 : s.inBuf.read 5 = some d1) : h.dl = d0.toNat * 256 + d1.toNat := by
  obtain ⟨i0, i1, p0, p1, d0', d1', unit, kind, hb, rfl⟩ := headerParse_eq_some hp
  obtain ⟨-, hr⟩ := Memory.bytes_eq_some.1 hb
  have hd0 : d0 = d0' := Option.some.inj (h0.symm.trans (hr 4 (by decide)))
  have hd1 : d1 = d1' := Option.some.inj (h1.symm.trans (hr 5 (by decide)))
  rw [hd0, hd1]
  exact be_pair d0' d1'

theorem frameDecode_of_headerParse_none {s : State} (h10 : 10 ≤ s.inLen.toNat) (hp : headerParse s = none) :
    frameDecode s = .refused .unwrittenInput := by
  rw [frameDecode_eq, if_neg (Nat.not_lt.2 h10), hp]

/-- With lengths that agree every byte of the input is read (R118 F7). -/
theorem frameDecode_unwritten {s : State} {h : Header} {j : Nat} (h10 : 10 ≤ s.inLen.toNat)
    (hp : headerParse s = some h) (hlen : s.inLen.toNat = h.dl + 8) (hj : j < s.inLen.toNat)
    (hr : s.inBuf.read j = none) : frameDecode s = .refused .unwrittenInput := by
  have hb : s.inBuf.bytes 0 s.inLen.toNat = none := Memory.bytes_eq_none hj (by rwa [Nat.zero_add])
  rw [frameDecode_eq, if_neg (Nat.not_lt.2 h10), hp, hb]
  exact (if_neg (by omega)).trans (if_neg (by omega))

section
variable {i : Instr} (hi : i ∈ [Instr.frame, Instr.decode]) {s : State}
include hi

/-- A refusal of FrameDecode is that of FRAME and DECODE (R118 F7). -/
theorem exec_of_frameDecode_refused {r : Refusal} (h : frameDecode s = .refused r) : exec i s = .refused r := by
  have hframe : execFrame s = .refused r := by rw [execFrame_eq, Attempt.settle_eq_refused, h]
  simp only [List.mem_cons, List.not_mem_nil, or_false] at hi
  obtain rfl | rfl := hi
  · exact hframe
  · exact execDecode_of_execFrame_refused hframe

end

/-- Settles O28: each command is refused by the read that meets the unwritten byte. -/
theorem unwrittenInputIsRefused : Obligations.UnwrittenInputIsRefused := by
  refine ⟨fun i hi s j hj hr => ?_, fun i hi s j h10 hj hr => ?_, fun i hi s j d0 d1 h10 h0 h1 hlen hj hr => ?_⟩
  · simp only [List.mem_cons, List.not_mem_nil, or_false] at hi
    obtain rfl | rfl := hi
    · exact execCrc16_unwritten hj hr
    · exact execXor_unwritten hj hr
  · exact exec_of_frameDecode_refused hi (frameDecode_of_headerParse_none h10 (headerParse_unwritten hj hr))
  · refine exec_of_frameDecode_refused hi ?_
    cases hp : headerParse s with
    | none => exact frameDecode_of_headerParse_none h10 hp
    | some h => exact frameDecode_unwritten h10 hp (headerParse_dl hp h0 h1 ▸ hlen) hj hr

/-! ## FRAME_VALID says that the frame decoded -/

/-- RECORD keeps FRAME_VALID (R96). -/
theorem execRecord_frameValid {s t : State} (h : execRecord s = .next t) :
    flag frameValidBit t.status = flag frameValidBit s.status := by
  obtain ⟨x, -, rfl⟩ | ⟨e, -, rfl⟩ := execRecord_eq_next h
  · exact flag_kept _ (by decide) (by decide)
  · exact recordFailed_frameValid ..

theorem frameDecode_ok_of_execFrame {s t : State} (h : execFrame s = .next t)
    (hv : flag frameValidBit t.status = true) : ∃ f, frameDecode s = .ok f ∧
      t = { s.clearedWith 0x00000009#32 with frame := (s.commitFrame f).frame, outBuf := f.payload } := by
  obtain hok | ⟨e, -, rfl⟩ := execFrame_eq_next h
  · exact hok
  · exact absurd (hv.symm.trans (frameFailed_flag (by decide) ..)) (by decide)

/-- FRAME or DECODE leaves FRAME_VALID only after a frame that decodes (R81, R107). -/
theorem frameDecode_ok_of_exec {i : Instr} (hi : i ∈ [Instr.frame, Instr.decode]) {s t : State}
    (h : exec i s = .next t) (hv : flag frameValidBit t.status = true) : ∃ f, frameDecode s = .ok f := by
  simp only [List.mem_cons, List.not_mem_nil, or_false] at hi
  obtain rfl | rfl := hi
  · obtain ⟨f, hf, -⟩ := frameDecode_ok_of_execFrame h hv
    exact ⟨f, hf⟩
  · obtain ⟨u, hu, rfl | hr⟩ := execDecode_eq_next h
    · obtain ⟨f, hf, -⟩ := frameDecode_ok_of_execFrame hu hv
      exact ⟨f, hf⟩
    · obtain ⟨f, hf, -⟩ := frameDecode_ok_of_execFrame hu ((execRecord_frameValid hr).symm.trans hv)
      exact ⟨f, hf⟩

/-! ## The checksum of a frame that decodes -/

/-- The front of a written input is a written input (R18, R29). -/
theorem State.inputIs.front {s : State} {bs post : List Byte} (h : s.inputIs (bs ++ post)) {n : Word}
    (hn : n.toNat = bs.length) : State.inputIs { s with inLen := n } bs := by
  refine ⟨hn, fun i hi => ?_⟩
  rw [h.2 i (by rw [List.length_append]; omega), List.getElem?_append_left hi]

/-- Settles O29: a frame that decodes is its body and two checksum bytes, so its body is the input shortened by 2. -/
theorem crc16OfBodyIsTheFrameCrc : Obligations.Crc16OfBodyIsTheFrameCrc := by
  intro s t h hv
  obtain ⟨f, hf, rfl⟩ := frameDecode_ok_of_execFrame h hv
  obtain ⟨i0, i1, p0, p1, d0, d1, unit, kind, c0, c1, pl, hin, -, -, rfl⟩ := frameDecode_eq_ok hf
  have hL : s.inLen.toNat = (wireBody i0 i1 p0 p1 d0 d1 unit kind pl).length + 2 := by
    rw [hin.1, List.length_append]; rfl
  have hshort : (s.inLen - 2#32).toNat = (wireBody i0 i1 p0 p1 d0 d1 unit kind pl).length := by
    rw [BitVec.toNat_sub_of_le (BitVec.le_def.2 (by rw [hL]; exact Nat.le_add_left 2 _)), hL]
    rfl
  exact ⟨_, execCrc16_of_inputIs (hin.front hshort), rfl⟩

/-- Settles O30: the frame decodes to the mask of its masked payload. -/
theorem builtFrameDecodesToItsPayload : Obligations.BuiltFrameDecodesToItsPayload := by
  intro s i0 i1 p0 p1 d0 d1 unit kind c0 c1 p hp hdl hcrc hin
  have hlen : (mask p).length + 2 = d0.toNat * 256 + d1.toNat := by
    rw [mask_length, ← append_toNat, hdl, BitVec.toNat_ofNat]
    omega
  obtain ⟨hcommit, -⟩ := frameCommitsTheDecodedFrame
  rw [hcommit s i0 i1 p0 p1 d0 d1 unit kind c0 c1 (mask p) hin hlen hcrc.symm, maskTwiceIsIdentity p]

/-- The last two bytes of an input are the CRC of those before them (R71). -/
def ChecksumMatches (bs : List Byte) : Prop :=
  crc16 (bs.take (bs.length - 2)) = BitVec.ofNat 16 (beValue (bs.drop (bs.length - 2)))

/-- A frame that decodes has at least 10 bytes and its checksum matches (R79, R80). -/
theorem checksumMatches_of_frameDecode {s : State} {bs : List Byte} {f : FrameResult} (hin : s.inputIs bs)
    (h : frameDecode s = .ok f) : 10 ≤ bs.length ∧ ChecksumMatches bs := by
  refine ⟨?_, ?_⟩
  · by_contra hlt
    cases (frameDecode_of_lt_minFrame (hin.1 ▸ Nat.lt_of_not_ge hlt)).symm.trans h
  · by_contra hne
    cases (frameDecode_of_crc16_ne hin hne).symm.trans h

/-- Two bytes are determined by the 16-bit value they show (R10). -/
theorem ofNat16_beValue_injective {l l' : List Byte} (hl : l.length = 2) (hl' : l'.length = 2)
    (h : BitVec.ofNat 16 (beValue l) = BitVec.ofNat 16 (beValue l')) : l = l' := by
  obtain ⟨a, b, rfl⟩ := List.length_eq_two.1 hl
  obtain ⟨c, d, rfl⟩ := List.length_eq_two.1 hl'
  rw [← be_eq_beValue, ← be_eq_beValue, ofNat16_be_pair, ofNat16_be_pair, ← BitVec.toNat_inj, append_toNat,
    append_toNat] at h
  have hb := b.isLt
  have hd := d.isLt
  rw [BitVec.eq_of_toNat_eq (show a.toNat = c.toNat by omega), BitVec.eq_of_toNat_eq (show b.toNat = d.toNat by omega)]

/-- A changed byte of the body changes the CRC, one of the checksum changes the value received (R71). -/
theorem ChecksumMatches.not_set {bs : List Byte} {k : Nat} {b : Byte} (h : ChecksumMatches bs)
    (hlen : 2 ≤ bs.length) (hk : k < bs.length) (hb : bs[k]? ≠ some b) : ¬ ChecksumMatches (bs.set k b) := by
  unfold ChecksumMatches at h ⊢
  rw [List.length_set]
  intro hset
  rcases Nat.lt_or_ge k (bs.length - 2) with hbody | htail
  · have hbody' : k < (bs.take (bs.length - 2)).length := by rw [List.length_take]; omega
    rw [List.drop_set_of_lt hbody, ← h, List.take_set] at hset
    exact crc16_set_ne hbody' (by rwa [List.getElem?_take_of_lt hbody]) hset
  · rw [List.take_set_of_le htail, h] at hset
    have hdrop := ofNat16_beValue_injective (by rw [List.length_drop]; omega)
      (by rw [List.length_drop, List.length_set]; omega) hset
    have hk' := congrArg (·[k - (bs.length - 2)]?) hdrop
    simp only [List.getElem?_drop, Nat.add_sub_cancel' htail, List.getElem?_set_self hk] at hk'
    exact hb hk'

/-- Settles O31: the changed input has a checksum that does not match, so FrameDecode raises an error. -/
theorem oneChangedByteIsDetected : Obligations.OneChangedByteIsDetected := by
  intro i hi s s' t bs k b hin h hv hk hb hin'
  obtain ⟨f, hf⟩ := frameDecode_ok_of_exec hi h hv
  obtain ⟨h10, hmatch⟩ := checksumMatches_of_frameDecode hin hf
  have hraised := frameDecode_of_crc16_ne hin' (hmatch.not_set (by omega) hk hb)
  exact ⟨_, exec_of_frameDecode_raised hi hraised, frameFailed_flag (by decide) ..,
    flag_set _ _ (errStatus_getLsbD (n := errBit) (by decide) _)⟩

end Sys2Proof.Machine
end

section
/-! SUPPORT. The calendar's day count, FIELD without a record, its scaling, and what RECORD and FIELD keep
(43_record_decode.md R91, R96, 44_field_select.md R99, R103). -/
namespace Sys2Proof.Machine

/-- Settles O37: R91's formula counts the days of the years and of the months. -/
theorem unixDaysCountTheDays : Obligations.UnixDaysCountTheDays :=
  fun y mo d _ h1 h2 _ => unixDays_eq_daysTo y mo d h1 h2

/-- Settles O40. -/
theorem undefinedSelectorsAreRejected : Obligations.UndefinedSelectorsAreRejected :=
  fun _ s h => fieldCommand_undefined h s

/-- Without a record a selector that has a row ends with NoRecord (R103, R112). -/
theorem fieldCommand_noRecord {s : State} {sel : Byte} {row : FieldRow}
    (hrow : layout s.record.extraLen.toNat sel = some row) (hv : flag recValidBit s.status = false) :
    fieldCommand sel s = .next (s.fieldEnd 0x00000605#32 {} {}) := by
  have hraised : fieldSelect s sel = .raised .noRecord := by
    simp only [fieldSelect, hrow, hv, if_true]
  rw [fieldCommand_eq, hraised, Attempt.settle, clearField_raise, errStatus_noRecord]
  rfl

/-- Settles O41: each of the 41 selectors has a row. -/
theorem fieldNeedsARecord : Obligations.FieldNeedsARecord := by
  intro r hr i hi s hv
  obtain ⟨row, hrow, -⟩ := layout_fieldRow s.record.extraLen.toNat r hr
  rw [exec_fieldRow r hr i hi, fieldCommand_noRecord hrow hv]

/-! ## Scaling -/

/-- The number `raw` is shown in the FIELD group with exponent `k` and its exact parts (R99). -/
structure FieldGroup.Shows (g : FieldGroup) (raw k : Nat) : Prop where
  fRaw : g.fRaw.toNat = raw
  fExp : g.fExp.toNat = k
  fInt : g.fInt.toNat = raw / 10 ^ k
  fFrac : g.fFrac.toNat = raw % 10 ^ k

/-- A number of 32 bits and its parts fit their registers (R99). -/
theorem numberGroupOf_shows (r : FieldClaim) {k raw : Nat} (hk : k ≤ 2) (hraw : raw < 2 ^ 32) :
    (numberGroupOf r k raw).Shows raw k where
  fRaw := by rw [numberGroupOf, BitVec.toNat_ofNat, Nat.mod_eq_of_lt hraw]
  fExp := by rw [numberGroupOf, BitVec.toNat_ofNat, Nat.mod_eq_of_lt (hk.trans_lt (by decide))]
  fInt := by
    rw [numberGroupOf, BitVec.toNat_ofNat, Nat.mod_eq_of_lt ((Nat.div_le_self _ _).trans_lt hraw)]
  fFrac := by
    rw [numberGroupOf, BitVec.toNat_ofNat, Nat.mod_eq_of_lt ((Nat.mod_le _ _).trans_lt hraw)]

theorem FieldGroup.Shows.exact {g : FieldGroup} {raw k : Nat} (h : g.Shows raw k) :
    g.fRaw.toNat = g.fInt.toNat * 10 ^ k + g.fFrac.toNat ∧ g.fFrac.toNat < 10 ^ k := by
  rw [h.fRaw, h.fInt, h.fFrac]
  exact ⟨(Nat.div_add_mod' raw (10 ^ k)).symm, Nat.mod_lt _ (Nat.pow_pos (by decide))⟩

/-- At most 4 bytes are a number of 32 bits (R10). -/
theorem be_slice_lt {width : Nat} (h : width ≤ 4) (l : List Byte) (off : Nat) :
    be (slice l off width) < 2 ^ 32 := by
  have hlen : (slice l off width).length ≤ 4 := by rw [slice_length]; omega
  calc be (slice l off width)
    _ < 256 ^ (slice l off width).length := be_lt _
    _ ≤ 256 ^ 4 := Nat.pow_le_pow_right (by decide) hlen

theorem numericRow_width : ∀ p ∈ [(numericRows0, 0), (numericRows1, 1), (numericRows2, 2)], ∀ r ∈ p.1,
    p.2 ≤ 2 ∧ r.width ≤ 4 := by decide

/-- A FIELD command that ends with a number shows it with an exponent of at most 2 (R98, R99). -/
theorem fieldCommand_shows {sel : Byte} {s t : State} (h : fieldCommand sel s = .next t)
    (hv : flag fieldValidBit t.status = true) (hk : t.field.fKind = 0#32) :
    ∃ raw k, t.field.Shows raw k ∧ k ≤ 2 := by
  obtain ⟨f, hf, rfl⟩ | ⟨e, -, rfl⟩ := fieldCommand_eq_next h
  · obtain ⟨-, row, hrow, rfl | ⟨hne, rfl⟩⟩ := fieldSelect_eq_ok hf
    · exact absurd hk (by decide : (1#32 : Word) ≠ 0#32)
    · obtain ⟨-, hexp, hnumber⟩ := layout_eq_some hrow
      obtain ⟨hwidth, -⟩ := hnumber hne
      refine ⟨be (slice s.outBuf row.off row.width), row.k, ?_, hexp⟩
      exact numberGroupOf_shows ⟨.nop, sel, row.off, row.width⟩ hexp (be_slice_lt hwidth _ _)
  · exact absurd (hv.symm.trans (flag_cleared _ (by decide) (errStatus_getLsbD (by decide) _))) (by decide)

/-- FIELD by the generic row or a named row is the field command of some selector (R60, R103). -/
theorem exec_field_selector {i : Instr} (hi : (∃ sel, i = .field sel) ∨ ∃ r ∈ allFieldRows, i = r.cmd) :
    ∃ sel, ∀ s, exec i s = fieldCommand sel s := by
  obtain ⟨sel, rfl⟩ | ⟨r, hr, rfl⟩ := hi
  · exact ⟨sel, fun _ => rfl⟩
  · exact ⟨r.sel, exec_fieldRow r hr r.cmd (List.mem_cons_self ..)⟩

/-- Settles O42: quotient and remainder by `10 ^ k` of a number of at most 4 bytes. -/
theorem scalingIsExact : Obligations.ScalingIsExact := by
  refine ⟨fun p hp r hr i hi s hv hlen => ?_, fun i s t hi h hv hk => ?_⟩
  · obtain ⟨hexp, hwidth⟩ := numericRow_width p hp r hr
    have hraw : beValue ((s.outBuf.drop r.off).take r.width) < 2 ^ 32 := by
      rw [← be_eq_beValue]
      exact be_slice_lt hwidth s.outBuf r.off
    have hshows := numberGroupOf_shows r hexp hraw
    exact ⟨_, numericFieldsAreReported p hp r hr i hi s hv hlen, flag_set _ _ (by decide), rfl, hshows.fExp, hshows.fRaw,
      hshows.exact⟩
  · obtain ⟨sel, hsel⟩ := exec_field_selector hi
    obtain ⟨raw, k, hshows, hexp⟩ := fieldCommand_shows (hsel s ▸ h) hv hk
    obtain ⟨hsum, hlt⟩ := hshows.exact
    rw [hshows.fExp]
    exact ⟨hsum, hlt, hexp⟩

/-! ## What RECORD and FIELD keep -/

/-- Settles O54: RECORD writes STATUS, the ERROR, the RECORD and the FIELD group, and FIELD not the RECORD group;
the STATUS bits they write are not the flags they keep. -/
theorem recordAndFieldKeepTheFrame : Obligations.RecordAndFieldKeepTheFrame := by
  refine ⟨fun s t h => ?_, fun i s t hi h => ?_⟩
  · have hv := execRecord_frameValid h
    obtain ⟨x, -, rfl⟩ | ⟨e, -, rfl⟩ := execRecord_eq_next h
    · exact ⟨rfl, fun _ => rfl, hv⟩
    · exact ⟨rfl, fun _ => rfl, hv⟩
  · obtain ⟨sel, hsel⟩ := exec_field_selector hi
    obtain ⟨f, -, rfl⟩ | ⟨e, -, rfl⟩ := fieldCommand_eq_next (hsel s ▸ h)
    · exact ⟨rfl, rfl, fun _ => rfl, flag_kept _ (by decide) (by decide), flag_kept _ (by decide) (by decide)⟩
    · exact ⟨rfl, rfl, fun _ => rfl, flag_kept _ (by decide) (errStatus_getLsbD (by decide) _),
        flag_kept _ (by decide) (errStatus_getLsbD (by decide) _)⟩

end Sys2Proof.Machine
end

section
/-! SUPPORT. DECODE of a good frame: the end of FRAME, and of RECORD from there (45_control.md R107). -/
namespace Sys2Proof.Machine

/-- Kinds are compared as registers or as bytes alike (R21). -/
theorem setWidth_kind_eq_data {kind : Byte} : (kind.setWidth 32 : Word) = 0x04#32 ↔ kind = 0x04#8 := by
  revert kind; decide +kernel

/-- Settles O45: FRAME commits the frame, whose kind does not go on to RECORD. -/
theorem decodeOfOtherKindsCommitsTheFrame : Obligations.DecodeOfOtherKindsCommitsTheFrame := by
  intro s i0 i1 p0 p1 d0 d1 unit kind c0 c1 pl hkind hin hlen hcrc
  obtain ⟨hcommit, -⟩ := frameCommitsTheDecodedFrame
  have hframe := hcommit s i0 i1 p0 p1 d0 d1 unit kind c0 c1 pl hin hlen hcrc
  calc exec .decode s
    _ = execDecode s := rfl
    _ = _ := by
      rw [execDecode_of_execFrame_next hframe]
      exact if_neg fun h => hkind (setWidth_kind_eq_data.1 h.2)

/-- RECORD after FRAME: FRAME_VALID and DONE are kept or set again, REC_VALID is set (R82, R95). -/
theorem status_record_after_frame (st : Word) :
    (((st &&& 0xFFFF00C2#32) ||| 0x00000009#32) &&& 0xFFFF00CA#32) ||| 0x00000011#32 =
      (st &&& 0xFFFF00C2#32) ||| 0x00000019#32 :=
  mask_set_mask_set st 0xFFFF00C2#32 0x00000009#32 0xFFFF00CA#32 0x00000011#32

/-- Settles O46: FRAME commits a `Data` frame, and RECORD commits the record of its payload. -/
theorem decodeOfDataCommitsTheRecord : Obligations.DecodeOfDataCommitsTheRecord := by
  intro s i0 i1 p0 p1 d0 d1 unit c0 c1 y mo d h mi sec pl hin hlen hcrc h409 hbytes hvalid
  obtain ⟨hframeCommit, -⟩ := frameCommitsTheDecodedFrame
  obtain ⟨hrecordCommit, -⟩ := recordCommitsTheTimestamp
  have hframe := hframeCommit s i0 i1 p0 p1 d0 d1 unit 0x04#8 c0 c1 pl hin hlen hcrc
  have hv : flag frameValidBit ((s.status &&& 0xFFFF00C2#32) ||| 0x00000009#32) = true := flag_set _ _ (by decide)
  have hlen409 : 409 ≤ (mask pl).length := by rwa [mask_length]
  have hrecord := hrecordCommit { s.clearedWith 0x00000009#32 with
    frame := frameGroupOf i0 i1 p0 p1 d0 d1 unit 0x04#8 c0 c1, outBuf := mask pl } y mo d h mi sec hv rfl hlen409 hbytes
    hvalid
  calc exec .decode s
    _ = execDecode s := rfl
    _ = exec .record _ := by
      rw [execDecode_of_execFrame_next hframe]
      exact if_pos ⟨hv, rfl⟩
    _ = _ := hrecord
    _ = _ := by
      simp only [State.clearedWith, status_record_after_frame, mask_length]

end Sys2Proof.Machine
end

section
/-! SUPPORT. The same command word twice (20_memory.md R45): a command run on the state it left answers that state, and
the host's list has no part in it. -/
namespace Sys2Proof.Machine

/-! ## Commands that begin by clearing every group -/

/-- What such a command starts from: the input, the host's lists, BUSY and the reserved bits. -/
theorem clearedWith_congr {s t : State} (hin : s.SameInput t)
    (hres : t.status &&& 0xFFFF00C2#32 = s.status &&& 0xFFFF00C2#32) (v : Word) :
    t.clearedWith v = s.clearedWith v := by
  obtain ⟨hcmd, hlen, hbuf, hpend, hrecv⟩ := hin
  simp only [State.clearedWith, hcmd, hlen, hbuf, hpend, hrecv, hres]

section
variable {s t : State} (hin : s.SameInput t) (hres : t.status &&& 0xFFFF00C2#32 = s.status &&& 0xFFFF00C2#32)
include hin hres

theorem execCrc16_congr : execCrc16 t = execCrc16 s := by
  rw [execCrc16_eq, execCrc16_eq, hin.inBuf, hin.inLen, clearedWith_congr hin hres]

theorem execXor_congr : execXor t = execXor s := by
  rw [execXor_eq, execXor_eq, hin.inBuf, hin.inLen, clearedWith_congr hin hres]

theorem execClear_congr : execClear t = execClear s := by
  rw [execClear_eq, execClear_eq, clearedWith_congr hin hres]

theorem execFrame_congr : execFrame t = execFrame s := by
  have hd : frameDecode t = frameDecode s := frameDecode_congr hin.inLen fun _ _ => by rw [hin.inBuf]
  cases hf : frameDecode s with
  | ok f =>
    rw [execFrame_ok hf, execFrame_ok (hd.trans hf), clearedWith_congr hin hres]
    rfl
  | raised e =>
    rw [execFrame_raised hf, execFrame_raised (hd.trans hf), State.frameFailed, State.frameFailed,
      clearedWith_congr hin hres]
  | refused r => rw [execFrame_eq, execFrame_eq, hd, hf]; rfl
  | fault f => exact absurd hf (frameDecode_ne_fault s f)

/-- DECODE goes on from where FRAME ends (R107). -/
theorem execDecode_congr : execDecode t = execDecode s := by
  have hf := execFrame_congr hin hres
  cases h : execFrame s with
  | next u => rw [execDecode_of_execFrame_next h, execDecode_of_execFrame_next (hf.trans h)]
  | refused r => rw [execDecode_of_execFrame_refused h, execDecode_of_execFrame_refused (hf.trans h)]
  | fault f => exact absurd h (execFrame_ne_fault s f)

end

/-! ## Commands run on the state they left -/

/-- Keeping and setting the same bits again changes nothing. -/
theorem mask_set_idem (st m v : Word) : (((st &&& m) ||| v) &&& m) ||| v = (st &&& m) ||| v := by
  ext i
  simp only [BitVec.getElem_or, BitVec.getElem_and]
  cases m[i] <;> simp

/-- RECORD keeps what RecordDecode reads: FRAME_VALID, the kind and OUT_BUF. -/
theorem execRecord_idem {s t : State} (h : execRecord s = .next t) : execRecord t = .next t := by
  have hv := execRecord_frameValid h
  obtain ⟨x, hx, rfl⟩ | ⟨e, he, rfl⟩ := execRecord_eq_next h
  · rw [execRecord_ok ((recordDecode_congr hv rfl rfl).trans hx)]
    simp only [mask_set_idem]
    rfl
  · rw [execRecord_raised ((recordDecode_congr hv rfl rfl).trans he)]
    simp only [State.recordFailed, mask_set_idem]

/-- FIELD on an error of its selection (R103, R110). -/
theorem fieldCommand_raised {s : State} {sel : Byte} {e : CmdError} (h : fieldSelect s sel = .raised e) :
    fieldCommand sel s = .next (s.fieldEnd (errStatus e.code) { errA := e.detailA, errB := e.detailB } {}) := by
  rw [fieldCommand_eq, h, Attempt.settle, clearField_raise]

/-- FIELD keeps what its selection reads: REC_VALID, EXTRA_LEN and OUT_BUF. -/
theorem fieldCommand_idem {sel : Byte} {s t : State} (h : fieldCommand sel s = .next t) :
    fieldCommand sel t = .next t := by
  obtain ⟨f, hf, rfl⟩ | ⟨e, he, rfl⟩ := fieldCommand_eq_next h
  · have hv : flag recValidBit (s.fieldEnd 0x00000021#32 {} f).status = flag recValidBit s.status :=
      flag_kept _ (by decide) (by decide)
    rw [fieldCommand_ok ((fieldSelect_congr sel hv rfl rfl).trans hf)]
    simp only [State.fieldEnd, mask_set_idem]
  · have hv : flag recValidBit (s.fieldEnd (errStatus e.code) { errA := e.detailA, errB := e.detailB } {}).status =
        flag recValidBit s.status := flag_kept _ (by decide) (errStatus_getLsbD (by decide) _)
    rw [fieldCommand_raised ((fieldSelect_congr sel hv rfl rfl).trans he)]
    simp only [State.fieldEnd, mask_set_idem]

theorem exec_idem {i : Instr} {s t : State} (h : exec i s = .next t) : exec i t = .next t := by
  have hin := exec_sameInput h
  have hres := (exec_endsCommand h).reserved
  obtain rfl | rfl | rfl | rfl | rfl | rfl | rfl | ⟨sel, hi⟩ := exec_shape i
  · cases h
    show Host.Outcome.next s.setDone.setDone = .next s.setDone
    simp only [State.setDone, setFlag_idem]
  · exact (execCrc16_congr hin hres).trans h
  · exact (execXor_congr hin hres).trans h
  · exact (execFrame_congr hin hres).trans h
  · exact execRecord_idem h
  · exact (execDecode_congr hin hres).trans h
  · exact (execClear_congr hin hres).trans h
  · rw [hi] at h ⊢
    exact fieldCommand_idem h

theorem coreStep_idem {w : Word} {s t : State} (h : coreStep w s = .next t) : coreStep w t = .next t := by
  cases hd : decode w with
  | ok i =>
    rw [coreStep_of_decode_ok hd] at h ⊢
    exact exec_idem h
  | error e =>
    rw [coreStep_of_decode_error hd] at h ⊢
    cases h
    simp only [illegalWord_eq, mask_set_idem]

/-! ## The host's list -/

/-- A command ends in the same state whatever the host's list, the list aside, when its start and its commit do. -/
theorem Attempt.settle_withPending {α : Type} {a : Attempt α} {s t : State} {commit : State → α → State}
    {p : List HostAction} (h : a.settle s commit = .next t)
    (hcommit : ∀ x, commit { s with pending := p } x = { commit s x with pending := p }) :
    a.settle { s with pending := p } commit = .next { t with pending := p } := by
  obtain ⟨x, rfl, rfl⟩ | ⟨e, rfl, rfl⟩ := Attempt.settle_eq_next.1 h
  · rw [Attempt.settle, hcommit]; rfl
  · rfl

section
variable {s t : State} (p : List HostAction)

theorem execCrc16_withPending (h : execCrc16 s = .next t) :
    execCrc16 { s with pending := p } = .next { t with pending := p } := by
  obtain ⟨bs, hin, rfl⟩ := execCrc16_eq_next h
  exact execCrc16_of_inputIs (s := { s with pending := p }) hin

theorem execXor_withPending (h : execXor s = .next t) :
    execXor { s with pending := p } = .next { t with pending := p } := by
  obtain ⟨bs, hin, rfl⟩ := execXor_eq_next h
  exact execXor_of_inputIs (s := { s with pending := p }) hin

theorem execFrame_withPending (h : execFrame s = .next t) :
    execFrame { s with pending := p } = .next { t with pending := p } := by
  have hd : frameDecode { s with pending := p } = frameDecode s := frameDecode_congr rfl fun _ _ => rfl
  rw [execFrame_eq] at h ⊢
  rw [hd]
  exact Attempt.settle_withPending h fun _ => rfl

theorem execRecord_withPending (h : execRecord s = .next t) :
    execRecord { s with pending := p } = .next { t with pending := p } := by
  have hd : recordDecode { s with pending := p } = recordDecode s := recordDecode_congr rfl rfl rfl
  rw [execRecord_eq] at h ⊢
  rw [hd]
  exact Attempt.settle_withPending h fun _ => rfl

theorem fieldCommand_withPending {sel : Byte} (h : fieldCommand sel s = .next t) :
    fieldCommand sel { s with pending := p } = .next { t with pending := p } := by
  have hd : fieldSelect { s with pending := p } sel = fieldSelect s sel := fieldSelect_congr sel rfl rfl rfl
  rw [fieldCommand_eq] at h ⊢
  rw [hd]
  exact Attempt.settle_withPending h fun _ => rfl

theorem execDecode_withPending (h : execDecode s = .next t) :
    execDecode { s with pending := p } = .next { t with pending := p } := by
  obtain ⟨u, hu⟩ := exists_execFrame_next h
  rw [execDecode_of_execFrame_next hu] at h
  rw [execDecode_of_execFrame_next (execFrame_withPending p hu)]
  split at h
  case isTrue hdata =>
    rw [if_pos hdata]
    exact execRecord_withPending p h
  case isFalse hdata =>
    rw [if_neg hdata]
    cases h
    rfl

theorem coreStep_withPending {w : Word} (h : coreStep w s = .next t) :
    coreStep w { s with pending := p } = .next { t with pending := p } := by
  cases hd : decode w with
  | error e =>
    rw [coreStep_of_decode_error hd] at h ⊢
    cases h
    rfl
  | ok i =>
    rw [coreStep_of_decode_ok hd] at h ⊢
    obtain rfl | rfl | rfl | rfl | rfl | rfl | rfl | ⟨sel, hi⟩ := exec_shape i
    · cases h; rfl
    · exact execCrc16_withPending p h
    · exact execXor_withPending p h
    · exact execFrame_withPending p h
    · exact execRecord_withPending p h
    · exact execDecode_withPending p h
    · cases h; rfl
    · rw [hi] at h ⊢
      exact fieldCommand_withPending p h

end

/-- Settles O55: the second write finds the word in CMD already, and its command run on the state it left. -/
theorem sameCommandTwiceIsOnce : Obligations.SameCommandTwiceIsOnce := by
  intro s t w rest hp h
  rw [step_write hp, busWrite_cmd] at h
  have hin := coreStep_sameInput h
  have hw : t.cmd = w := hin.cmd
  have hcmd : ({ t with pending := rest, cmd := w } : State) = { t with pending := rest } := by
    rw [← hw]
  rw [step_write hin.pending, busWrite_cmd, hcmd]
  exact coreStep_withPending rest (coreStep_idem h)

end Sys2Proof.Machine
end

section
/-! SUPPORT. What the results of the input commands depend on (10_state.md R32): states with the same input give the same
results. -/
namespace Sys2Proof.Machine

/-- `t` and `t'` agree on the ERROR, FRAME, RECORD and FIELD groups, OUT_BUF and every STATUS field but BUSY and the
reserved bits. -/
structure State.SameResults (t t' : State) : Prop where
  error : t'.error = t.error
  frame : t'.frame = t.frame
  record : t'.record = t.record
  field : t'.field = t.field
  outBuf : t'.outBuf = t.outBuf
  status : t'.status &&& 0x0000FF3D#32 = t.status &&& 0x0000FF3D#32

/-- The flags are among those STATUS fields. -/
theorem State.SameResults.flag_eq {t t' : State} (h : t.SameResults t') {n : Nat}
    (hn : (0x0000FF3D#32).getLsbD n = true) : flag n t'.status = flag n t.status := by
  have hflag := congrArg (flag n) h.status
  rwa [flag_and, flag_and, hn, Bool.and_true, Bool.and_true] at hflag

/-- A command that keeps BUSY and the reserved bits alone leaves the rest of STATUS to what it sets. -/
theorem results_of_cleared (st v : Word) :
    ((st &&& 0xFFFF00C2#32) ||| v) &&& 0x0000FF3D#32 = v &&& 0x0000FF3D#32 := by
  rw [BitVec.and_or_distrib_right, BitVec.and_assoc,
    show (0xFFFF00C2#32 &&& 0x0000FF3D#32 : Word) = 0#32 by decide, BitVec.and_zero, BitVec.zero_or]

section
variable {s s' t : State} (hlen : s'.inLen = s.inLen)
  (hread : ∀ a, a < s.inLen.toNat → s'.inBuf.read a = s.inBuf.read a)
include hlen hread

theorem State.inputIs_congr {bs : List Byte} (h : s.inputIs bs) : s'.inputIs bs :=
  ⟨hlen ▸ h.1, fun i hi => (hread i (h.1 ▸ hi)).trans (h.2 i hi)⟩

theorem execCrc16_sameResults (h : execCrc16 s = .next t) : ∃ t', execCrc16 s' = .next t' ∧ t.SameResults t' := by
  obtain ⟨bs, hin, rfl⟩ := execCrc16_eq_next h
  exact ⟨_, execCrc16_of_inputIs (State.inputIs_congr hlen hread hin), rfl, rfl, rfl, rfl, rfl,
    (results_of_cleared ..).trans (results_of_cleared ..).symm⟩

theorem execXor_sameResults (h : execXor s = .next t) : ∃ t', execXor s' = .next t' ∧ t.SameResults t' := by
  obtain ⟨bs, hin, rfl⟩ := execXor_eq_next h
  exact ⟨_, execXor_of_inputIs (State.inputIs_congr hlen hread hin), rfl, rfl, rfl, rfl, rfl,
    (results_of_cleared ..).trans (results_of_cleared ..).symm⟩

theorem execFrame_sameResults (h : execFrame s = .next t) : ∃ t', execFrame s' = .next t' ∧ t.SameResults t' := by
  have hd := frameDecode_congr hlen hread
  obtain ⟨f, hf, rfl⟩ | ⟨e, he, rfl⟩ := execFrame_eq_next h
  · exact ⟨_, execFrame_ok (hd.trans hf), rfl, rfl, rfl, rfl, rfl,
      (results_of_cleared ..).trans (results_of_cleared ..).symm⟩
  · exact ⟨_, execFrame_raised (hd.trans he), rfl, rfl, rfl, rfl, rfl,
      (results_of_cleared ..).trans (results_of_cleared ..).symm⟩

end

/-- The STATUS fields of RECORD's end are FRAME_VALID, kept, and what RECORD sets. -/
theorem State.SameResults.status_record {u u' : State} (h : u.SameResults u') (v : Word) :
    ((u'.status &&& 0xFFFF00CA#32) ||| v) &&& 0x0000FF3D#32 =
      ((u.status &&& 0xFFFF00CA#32) ||| v) &&& 0x0000FF3D#32 := by
  simp only [BitVec.and_or_distrib_right, BitVec.and_assoc, BitVec.and_comm 0xFFFF00CA#32]
  simp only [← BitVec.and_assoc, h.status]

/-- RECORD depends on results alone: FRAME_VALID, the kind and OUT_BUF. -/
theorem execRecord_sameResults {u u' t : State} (hsame : u.SameResults u') (h : execRecord u = .next t) :
    ∃ t', execRecord u' = .next t' ∧ t.SameResults t' := by
  have hd : recordDecode u' = recordDecode u :=
    recordDecode_congr (hsame.flag_eq (by decide)) (congrArg FrameGroup.hdrKind hsame.frame) hsame.outBuf
  obtain ⟨x, hx, rfl⟩ | ⟨e, he, rfl⟩ := execRecord_eq_next h
  · have hrecord : (u'.commitRecord x).record = (u.commitRecord x).record := by
      simp only [State.commitRecord, State.outLen, hsame.outBuf]
    exact ⟨_, execRecord_ok (hd.trans hx), rfl, hsame.frame, hrecord, rfl, hsame.outBuf, hsame.status_record _⟩
  · exact ⟨_, execRecord_raised (hd.trans he), rfl, hsame.frame, rfl, rfl, hsame.outBuf, hsame.status_record _⟩

theorem execDecode_sameResults {s s' t : State} (hlen : s'.inLen = s.inLen)
    (hread : ∀ a, a < s.inLen.toNat → s'.inBuf.read a = s.inBuf.read a) (h : execDecode s = .next t) :
    ∃ t', execDecode s' = .next t' ∧ t.SameResults t' := by
  obtain ⟨u, hu⟩ := exists_execFrame_next h
  obtain ⟨u', hu', hsame⟩ := execFrame_sameResults hlen hread hu
  rw [execDecode_of_execFrame_next hu] at h
  rw [execDecode_of_execFrame_next hu', hsame.flag_eq (by decide), hsame.frame]
  split at h
  case isTrue hdata =>
    rw [if_pos hdata]
    exact execRecord_sameResults hsame h
  case isFalse hdata =>
    rw [if_neg hdata]
    cases h
    exact ⟨u', rfl, hsame⟩

/-- Settles O56, command by command. -/
theorem inputCommandsDependOnInputOnly : Obligations.InputCommandsDependOnInputOnly := by
  intro i hi s s' t hlen hread h
  have hsame : ∃ t', exec i s' = .next t' ∧ t.SameResults t' := by
    simp only [List.mem_cons, List.not_mem_nil, or_false] at hi
    obtain rfl | rfl | rfl | rfl := hi
    · exact execCrc16_sameResults hlen hread h
    · exact execXor_sameResults hlen hread h
    · exact execFrame_sameResults hlen hread h
    · exact execDecode_sameResults hlen hread h
  obtain ⟨t', ht', herror, hframe, hrecord, hfield, hout, hstatus⟩ := hsame
  exact ⟨t', ht', herror, hframe, hrecord, hfield, hout, hstatus⟩

end Sys2Proof.Machine
end
